-- ==== Sys2Proof/Word.lean ====
section
/-! DEFINITION. The words, bytes and samples of the CORE (20_memory.md R63, 30_encoding.md R80), and the plain
data that writes one exact value of the waveform precomputation down (41_synth.md R179). -/

namespace Sys2Proof

/-- A command word, an operand word, a result word or a 32-bit register (30_encoding.md R80 to R82). -/
abbrev Word := BitVec 32

/-- A transport-stream byte, or one output element of the Framer (20_memory.md R63). -/
abbrev Byte := BitVec 8

/-- A complex sample: the binary32 encodings of its real and imaginary part (20_memory.md R63). -/
structure Sample where
  re : Word
  im : Word
  deriving DecidableEq, Repr, Inhabited

/-- One term `level * weight * exp(+2 pi i * turn / 1024)` of the sum of 41_synth.md R179: `level` is the
spectrum's value at a bin, `weight` the window's binary32 value there (an encoding of an exact real), `turn` the
phase in 1024ths of a full turn. -/
structure PhaseTerm where
  level : Int
  weight : Word
  turn : Nat
  deriving DecidableEq, Repr

/-- One exact complex value of 41_synth.md R179: the sum of its terms, divided by the square root of 384. -/
abbrev ExactValue := List PhaseTerm

end Sys2Proof
end

