-- ==== Sys2Proof/Config.lean ====
section
/-! DEFINITION. What one instance of the hardware fixes and the spec leaves open (00_scope.md R9, 92_eei_decisions.md
D24 and D33), and the free values (93_implementation_defined.md section 2). Every constant here is opaque: no proof can
know a value of it, so a statement holds whatever the value is. -/

namespace Sys2Proof

/-- `P1_PRBS_TAPS` (41_synth.md R176): the two tapped bits of the 18-bit register, and how the register and the XOR of
its two taps give the output bit and the next register. Which bit is the output and how the register shifts are open,
so both are functions without a form (log entry 8). -/
structure PrbsTaps where
  tapA : Fin 18
  tapB : Fin 18
  output : BitVec 18 → Bool → Bool
  shift : BitVec 18 → Bool → BitVec 18
  deriving Inhabited

/-- `S1_ROWS[0..7]` (10_state.md R44): eight rows of eight stored bytes, 64 bits a row. -/
opaque Config.s1Rows : Fin 8 → Fin 8 → Byte

/-- `S2_ROWS[0..15]` (10_state.md R44): sixteen rows of 32 stored bytes, 256 bits a row. -/
opaque Config.s2Rows : Fin 16 → Fin 32 → Byte

/-- `P1_CARRIERS` (10_state.md R44, 41_synth.md R178), as a permutation of 0..937 whose first 384 values are the
carriers: every list of 384 distinct values in 0..937 is such a beginning, and no other list is (log entry 7). -/
opaque Config.p1CarrierOrder : Equiv.Perm (Fin 938)

/-- `P1_PRBS_TAPS` (41_synth.md R176). -/
opaque Config.p1PrbsTaps : PrbsTaps

/-- `P1_ROUND` (41_synth.md R180): `p1Round exact n` is the stored sample n of the exact waveform `exact`. -/
opaque Config.p1Round : (Nat → ExactValue) → Nat → Sample

/-- The sign of the quiet NaN that scaling a NaN gives (41_synth.md R186), by the operands' encodings. -/
opaque Config.nanSign : Word → Word → Bool

/-- `NAN_PAYLOAD` (41_synth.md R186): the 22 payload bits of the quiet NaN that scaling a NaN gives, by the operands'
encodings. -/
opaque Config.nanPayload : Word → Word → BitVec 22

/-- How many output elements a work command had written when power-on reset cut it off, at the d-th draw, before that is
held to what the command emits (70_reset_and_hazards.md R262). -/
opaque Config.freeCount : Nat → Nat

/-- The value left in element j of a Framer output buffer whose contents the spec leaves unspecified (20_memory.md R69,
70_reset_and_hazards.md R262 and R265), at the d-th draw. -/
opaque Config.freeByte : Nat → Nat → Byte

/-- The value left in element j of a Synthesizer output buffer whose contents the spec leaves unspecified
(20_memory.md R69, 70_reset_and_hazards.md R262 and R265), at the d-th draw. -/
opaque Config.freeSample : Nat → Nat → Sample

end Sys2Proof
end

