-- ==== Sys2Proof/Syntax.lean ====
section
/-! DEFINITION. The commands of the CORE (30_encoding.md R83): one constructor of `Instr` for each row of the opcode
table, with its operands, and one of `Opcode` for its opcode. -/

namespace Sys2Proof

/-- The listed opcodes (30_encoding.md R83). -/
inductive Opcode where
  | nop | frConfig | frForecast | frWork | frReset
  | syConfig | syForecast | syWork | syReset | rdreg | rdtab
  deriving DecidableEq, Repr

/-- The two units behind the command port (00_scope.md R2). -/
inductive UnitId where
  | fr | sy
  deriving DecidableEq, Repr

/-- A command with its operands (30_encoding.md R83 to R85). -/
inductive Instr where
  /-- 42_control.md R214 -/
  | nop
  /-- 40_framer.md R120: W1 packed like FR_CFG, W2 = fecBlockCount, W3 = tsRate -/
  | frConfig (w1 w2 w3 : Word)
  /-- 40_framer.md R122: N output bits -/
  | frForecast (n : Word)
  /-- 40_framer.md R124: N output bits -/
  | frWork (n : Word)
  /-- 42_control.md R212 -/
  | frReset
  /-- 41_synth.md R170: W1 packed like SY_CFG, W2 = numDataSymbols, W3..W1026 the window -/
  | syConfig (w1 w2 : Word) (window : List Word)
  /-- 41_synth.md R182: N output samples -/
  | syForecast (n : Word)
  /-- 41_synth.md R183: N output samples -/
  | syWork (n : Word)
  /-- 42_control.md R213 -/
  | syReset
  /-- 42_control.md R210: the register number -/
  | rdreg (reg : Byte)
  /-- 42_control.md R211: the table id and the entry index -/
  | rdtab (tab : Byte) (idx : BitVec 16)
  deriving DecidableEq, Repr

/-- The opcode of a command. -/
def Instr.opcode : Instr → Opcode
  | .nop => .nop
  | .frConfig _ _ _ => .frConfig
  | .frForecast _ => .frForecast
  | .frWork _ => .frWork
  | .frReset => .frReset
  | .syConfig _ _ _ => .syConfig
  | .syForecast _ => .syForecast
  | .syWork _ => .syWork
  | .syReset => .syReset
  | .rdreg _ => .rdreg
  | .rdtab _ _ => .rdtab

end Sys2Proof
end

