-- ==== Sys2Proof/WellFormed.lean ====
section
/-! DEFINITION. Which terms of `Instr` are commands: the operand words have the number the opcode map gives them
(30_encoding.md R83). Every other operand fills its field, so it is well-formed by its type. -/

namespace Sys2Proof

/-- `SY_CONFIG` carries exactly 1024 window words (30_encoding.md R83, R85); no other command has a check. -/
def Instr.wellFormed : Instr → Bool
  | .syConfig _ _ window => window.length == 1024
  | .nop | .frConfig _ _ _ | .frForecast _ | .frWork _ | .frReset | .syForecast _ | .syWork _ | .syReset => true
  | .rdreg _ | .rdtab _ _ => true

/-- The command is well-formed. -/
abbrev Instr.WellFormed (i : Instr) : Prop := i.wellFormed = true

end Sys2Proof
end

