-- ==== Sys2Proof/Decode.lean ====
section
/-! DEFINITION. Decoding a command from the words at the command port, and encoding one (30_encoding.md R80 to R86).
Decoding is total: every list of words holds a command, or is rejected by name, or does not yet hold all the words of
a command. -/

namespace Sys2Proof

/-- The opcode's number, bits 31:24 of its command word (30_encoding.md R83). -/
def opcodeByte : Opcode → Byte
  | .nop => 0x00
  | .frConfig => 0x01
  | .frForecast => 0x02
  | .frWork => 0x03
  | .frReset => 0x04
  | .syConfig => 0x11
  | .syForecast => 0x12
  | .syWork => 0x13
  | .syReset => 0x14
  | .rdreg => 0x20
  | .rdtab => 0x21

/-- The listed opcode with this number; every other number is reserved (30_encoding.md R83, R86). -/
def opcodeOf (b : Byte) : Option Opcode :=
  match b.toNat with
  | 0x00 => some .nop
  | 0x01 => some .frConfig
  | 0x02 => some .frForecast
  | 0x03 => some .frWork
  | 0x04 => some .frReset
  | 0x11 => some .syConfig
  | 0x12 => some .syForecast
  | 0x13 => some .syWork
  | 0x14 => some .syReset
  | 0x20 => some .rdreg
  | 0x21 => some .rdtab
  | _ => none

/-- The number of operand words, from the opcode alone (30_encoding.md R80, R83). -/
def operandCount : Opcode → Nat
  | .nop | .frReset | .syReset | .rdreg | .rdtab => 0
  | .frForecast | .frWork | .syForecast | .syWork => 1
  | .frConfig => 3
  | .syConfig => 1026

/-- The unit the opcode names (30_encoding.md R83, 60_exceptions.md R231). -/
def opcodeUnit : Opcode → Option UnitId
  | .frConfig | .frForecast | .frWork | .frReset => some .fr
  | .syConfig | .syForecast | .syWork | .syReset => some .sy
  | .nop | .rdreg | .rdtab => none

/-- The bits of IMM24 that must be 0 (30_encoding.md R84). -/
def mustBeZero : Opcode → BitVec 24
  | .rdtab => 0x000000
  | .rdreg => 0xFFFF00
  | .nop | .frConfig | .frForecast | .frWork | .frReset => 0xFFFFFF
  | .syConfig | .syForecast | .syWork | .syReset => 0xFFFFFF

/-- Bits 31:24 of a command word (30_encoding.md R80). -/
def opcField (w : Word) : Byte := w.extractLsb' 24 8

/-- Bits 23:0 of a command word (30_encoding.md R80). -/
def imm24Field (w : Word) : BitVec 24 := w.extractLsb' 0 24

/-- The command an opcode, its immediate and its operand words stand for (30_encoding.md R82 to R85). -/
def buildInstr (op : Opcode) (imm : BitVec 24) (args : List Word) : Instr :=
  match op with
  | .nop => .nop
  | .frConfig => .frConfig (args.getD 0 0) (args.getD 1 0) (args.getD 2 0)
  | .frForecast => .frForecast (args.getD 0 0)
  | .frWork => .frWork (args.getD 0 0)
  | .frReset => .frReset
  | .syConfig => .syConfig (args.getD 0 0) (args.getD 1 0) (args.drop 2)
  | .syForecast => .syForecast (args.getD 0 0)
  | .syWork => .syWork (args.getD 0 0)
  | .syReset => .syReset
  | .rdreg => .rdreg (imm.extractLsb' 0 8)
  | .rdtab => .rdtab (imm.extractLsb' 16 8) (imm.extractLsb' 0 16)

/-- What the words at the port hold. -/
inductive Fetched where
  /-- not all words of a command have arrived (70_reset_and_hazards.md R264) -/
  | wait
  /-- a reserved opcode: one word is taken (30_encoding.md R86) -/
  | illegal (opc : Byte) (rest : List Word)
  /-- a nonzero must-be-zero bit: the operand words are taken and discarded (30_encoding.md R86) -/
  | reserved (op : Opcode) (rest : List Word)
  /-- a command, and the words after it -/
  | instr (i : Instr) (rest : List Word)
  deriving DecidableEq, Repr

/-- Decodes the command at the head of the port (30_encoding.md R80, R86; 70_reset_and_hazards.md R264). -/
def decode : List Word → Fetched
  | [] => .wait
  | w :: ws =>
    match opcodeOf (opcField w) with
    | none => .illegal (opcField w) ws
    | some op =>
      if ws.length < operandCount op then .wait
      else if imm24Field w &&& mustBeZero op = 0 then
        .instr (buildInstr op (imm24Field w) (ws.take (operandCount op))) (ws.drop (operandCount op))
      else .reserved op (ws.drop (operandCount op))

/-- A command word from its two fields (30_encoding.md R80). -/
def commandWord (op : Opcode) (imm : BitVec 24) : Word := opcodeByte op ++ imm

/-- The words of a command (30_encoding.md R83 to R85). -/
def encode : Instr → List Word
  | .nop => [commandWord .nop 0]
  | .frConfig w1 w2 w3 => [commandWord .frConfig 0, w1, w2, w3]
  | .frForecast n => [commandWord .frForecast 0, n]
  | .frWork n => [commandWord .frWork 0, n]
  | .frReset => [commandWord .frReset 0]
  | .syConfig w1 w2 window => commandWord .syConfig 0 :: w1 :: w2 :: window
  | .syForecast n => [commandWord .syForecast 0, n]
  | .syWork n => [commandWord .syWork 0, n]
  | .syReset => [commandWord .syReset 0]
  | .rdreg reg => [commandWord .rdreg (reg.zeroExtend 24)]
  | .rdtab tab idx => [commandWord .rdtab (tab ++ idx)]

/-- The little-endian bytes of a command word, an operand word or a binary32 value (20_memory.md R66). -/
def wordBytes (w : Word) : List Byte :=
  [w.extractLsb' 0 8, w.extractLsb' 8 8, w.extractLsb' 16 8, w.extractLsb' 24 8]

/-- The words that bytes in memory hold, least significant byte at the lowest address (20_memory.md R66); bytes that
fill no whole word hold none. -/
def wordsOfBytes : List Byte → List Word
  | b0 :: b1 :: b2 :: b3 :: bs => (b3 ++ b2 ++ b1 ++ b0 : BitVec 32) :: wordsOfBytes bs
  | _ => []

/-- The bytes of a complex sample: its real part at the lower address (20_memory.md R66). -/
def sampleBytes (z : Sample) : List Byte := wordBytes z.re ++ wordBytes z.im

/-- How many words the command with this first word has; a reserved opcode has one (30_encoding.md R80, R86). -/
def wordCount (w : Word) : Nat :=
  match opcodeOf (opcField w) with
  | none => 1
  | some op => 1 + operandCount op

/-- The words of the instruction whose bits are w, numbered as the opcode table numbers them: word k is bits
32k+31 to 32k, and every bit from nbits on is 0. -/
def tableWords (nbits w : Nat) : List Word :=
  (List.range (wordCount (BitVec.ofNat 32 (w % 2 ^ nbits)))).map fun k => BitVec.ofNat 32 ((w % 2 ^ nbits) >>> (32 * k))

/-- The instruction the decoder reads from the instruction whose bits are w (its words laid out as a platform stores
them, 20_memory.md R66, and read back from those bytes). -/
def decodeTableWord (nbits w : Nat) : Option Instr :=
  match decode (wordsOfBytes ((tableWords nbits w).flatMap wordBytes)) with
  | .instr i _ => some i
  | .wait | .illegal _ _ | .reserved _ _ => none

end Sys2Proof
end

