-- ==== Sys2Proof/Machine/Bits.lean ====
section
/-! DEFINITION. Bit sequences of fields and their elements in a Framer output buffer (00_scope.md R10 and R11,
20_memory.md R63 and R65). -/

namespace Sys2Proof.Machine

open Sys2Proof

/-- `bits_MSB(v, w)`: the most significant bit first (00_scope.md R10, R11). -/
def bitsMSB {w : Nat} (v : BitVec w) : List Bool := (List.range w).map fun i => v.getLsbD (w - 1 - i)

/-- `bits_LSB(v, w)`: the least significant bit first (00_scope.md R10, R11). -/
def bitsLSB {w : Nat} (v : BitVec w) : List Bool := (List.range w).map fun i => v.getLsbD i

/-- The output element of one frame bit, "one output byte per bit" (20_memory.md R63). -/
def element (b : Bool) : Byte := if b then 1 else 0

/-- The output elements of a bit sequence, in its order (20_memory.md R63). -/
def elements (bs : List Bool) : List Byte := bs.map element

end Sys2Proof.Machine
end

