-- ==== Sys2Proof/Machine/Crc.lean ====
section
/-! DEFINITION. The two checksums of the Framer: the bit-serial CRC-8 of the header (40_framer.md R129) and the table
of the payload CRC-8 (40_framer.md R137). They share no state. -/

namespace Sys2Proof.Machine

open Sys2Proof

/-- One header bit into the header CRC register (40_framer.md R129). -/
def headerCrcStep (crc : Byte) (x : Bool) : Byte :=
  if (x ^^ crc.getLsbD 0) = true then (crc >>> 1) ^^^ 0xAB else crc >>> 1

/-- The header CRC register after the bits of h, before the HEM XOR (40_framer.md R129). -/
def headerCrcRegister (h : List Bool) : Byte := h.foldl headerCrcStep 0

/-- The header CRC register as it is emitted: XOR 0x80 in high-efficiency mode (40_framer.md R129). -/
def headerCrc (hem : Bool) (h : List Bool) : Byte :=
  if hem then headerCrcRegister h ^^^ 0x80 else headerCrcRegister h

/-- One round of the table construction, on bit j of the index i (40_framer.md R137). -/
def crc8Round (i crc : Byte) (j : Nat) : Byte :=
  if (i.getLsbD j ^^ crc.getLsbD 7) = true then (crc <<< 1) ^^^ 0xD5 else crc <<< 1

/-- `CRC8_TAB[i]`: the rounds for j = 7 down to 0 from 0 (40_framer.md R137). -/
def crc8Entry (i : Byte) : Byte := [7, 6, 5, 4, 3, 2, 1, 0].foldl (crc8Round i) 0

/-- `CRC8_TAB`, the ROM of 256 entries (10_state.md R33). -/
def crc8Tab : List Byte := (List.range 256).map fun i => crc8Entry (BitVec.ofNat 8 i)

/-- A byte folded into the payload checksum: `CRC8_TAB[b xor crc]` (40_framer.md R132). -/
def crc8Fold (crc b : Byte) : Byte := crc8Entry (b ^^^ crc)

/-- The payload checksum of a byte sequence from 0 (40_framer.md R138). -/
def crc8Bytes (bs : List Byte) : Byte := bs.foldl crc8Fold 0

end Sys2Proof.Machine
end

