-- ==== Sys2Proof/Machine/State.lean ====
section
/-! DEFINITION. The state of the CORE (10_state.md), the host interface a step reads and writes (20_memory.md R60,
30_encoding.md R80 and R81), and the state right after reset (70_reset_and_hazards.md R260). -/

namespace Sys2Proof.Machine

open Sys2Proof

/-- The fault codes 0x01 to 0x0A (60_exceptions.md R230). -/
inductive FaultCode where
  | illegalOpcode | reservedBits | badOperand | configError | alreadyConfigured
  | unconfigured | unitFaulted | badSize | outputOverflow | inputUnderrun
  deriving DecidableEq, Repr

/-- An event of the diagnostic log (10_state.md R31). -/
inductive Event where
  /-- a synchronization error (40_framer.md R133): FR_INPOS before the byte, and the byte found -/
  | syncError (pos : BitVec 64) (value : Byte)
  /-- a fault (60_exceptions.md R231): the unit the opcode names, the code, the opcode -/
  | fault (unit : Option UnitId) (code : FaultCode) (opcode : Byte)
  deriving DecidableEq, Repr

/-- The response that ends a command (30_encoding.md R81). -/
inductive Response where
  | ok (results : List Word)
  | fault (code : FaultCode)
  deriving DecidableEq, Repr

/-- The two buffers of a work command (20_memory.md R60): `n_in` and `n_cap` are the lists' lengths. -/
structure Buffers (α : Type) where
  /-- the input buffer, each element with the value it has when the CORE reads it (70_reset_and_hazards.md R265) -/
  input : List α
  /-- the output buffer -/
  output : List α
  /-- the output elements the host writes while the command executes (70_reset_and_hazards.md R265) -/
  hostWrites : List Nat
  deriving DecidableEq, Repr

/-- The registers of the Baseband Framer (10_state.md R21 to R32). -/
structure FrUnit where
  /-- FR_STATUS, R32 -/
  status : Word
  /-- FR_CFG, R21 -/
  cfg : Word
  /-- FR_FECBLOCKS, R22 -/
  fecBlocks : Word
  /-- FR_TSRATE, R23 -/
  tsRate : Word
  /-- FR_KBCH, R24 -/
  kbch : Word
  /-- FR_COUNT, R26 -/
  count : Byte
  /-- FR_CRC, R27 -/
  crc : Byte
  /-- FR_FECBLOCK, R28 -/
  fecBlock : Word
  /-- FR_INPOS, R29 -/
  inPos : BitVec 64
  /-- FR_SYNCERR, R30 -/
  syncErr : Word
  deriving DecidableEq, Repr

/-- The registers and tables of the Preamble Synthesizer (10_state.md R35 to R43, R45). -/
structure SyUnit where
  /-- SY_STATUS, R45 -/
  status : Word
  /-- SY_CFG, R35 -/
  cfg : Word
  /-- SY_NDATA, R36 -/
  nData : Word
  /-- SY_FFTSIZE, R37 -/
  fftSize : Word
  /-- SY_NP2, R37 -/
  np2 : Word
  /-- SY_CPS, R38 -/
  cps : Word
  /-- SY_GI, R39 -/
  gi : Word
  /-- SY_FRAME_ITEMS, R40 -/
  frameItems : Word
  /-- SY_INSERTION_ITEMS, R40 -/
  insertionItems : Word
  /-- SY_SCALE, R41 -/
  scale : Word
  /-- SY_WIN, R42 -/
  win : List Word
  /-- P1_A, R43 -/
  p1A : List Sample
  /-- P1_SH, R43 -/
  p1Sh : List Sample
  deriving DecidableEq, Repr

/-- The CORE and its host interface. -/
structure State where
  /-- unit FR -/
  fr : FrUnit
  /-- unit SY -/
  sy : SyUnit
  /-- the diagnostic log, oldest event first (10_state.md R31) -/
  log : List Event
  /-- host interface: the words that have arrived at the command port and are not taken yet, oldest first (30_encoding.md R80) -/
  port : List Word
  /-- host interface: the buffers handed over with the coming FR_WORK commands, in their order (20_memory.md R60) -/
  frBufs : List (Buffers Byte)
  /-- host interface: the buffers handed over with the coming SY_WORK commands, in their order (20_memory.md R60) -/
  syBufs : List (Buffers Sample)
  /-- host interface: the responses delivered, oldest first (30_encoding.md R81) -/
  responses : List Response
  /-- host interface: the buffers of the FR_WORK commands that ended, oldest first (20_memory.md R62, R73) -/
  frReturned : List (Buffers Byte)
  /-- host interface: the buffers of the SY_WORK commands that ended, oldest first (20_memory.md R62, R73) -/
  syReturned : List (Buffers Sample)
  /-- host interface: a power-on reset arrives during the next step (70_reset_and_hazards.md R262) -/
  resetPin : Bool
  /-- the MODEL's own: how many times free values have been drawn (log entry 4) -/
  draws : Nat
  deriving DecidableEq, Repr

/-- Unit FR right after reset (70_reset_and_hazards.md R260, R261). -/
def FrUnit.reset : FrUnit :=
  { status := 0, cfg := 0, fecBlocks := 0, tsRate := 0, kbch := 0, count := 0, crc := 0, fecBlock := 0, inPos := 0,
    syncErr := 0 }

/-- Unit SY right after reset (70_reset_and_hazards.md R260, R261). -/
def SyUnit.reset : SyUnit :=
  { status := 0, cfg := 0, nData := 0, fftSize := 0, np2 := 0, cps := 0, gi := 0, frameItems := 0, insertionItems := 0,
    scale := 0, win := List.replicate 1024 0, p1A := List.replicate 1024 ⟨0, 0⟩, p1Sh := List.replicate 1024 ⟨0, 0⟩ }

/-- The machine right after power-on reset (70_reset_and_hazards.md R260), with a host that has sent nothing yet
(log entries 1, 2, 4 and 6). -/
def State.reset : State :=
  { fr := FrUnit.reset, sy := SyUnit.reset, log := [], port := [], frBufs := [], syBufs := [], responses := [],
    frReturned := [], syReturned := [], resetPin := false, draws := 0 }

/-- Why a step stops. No command stops: what the spec calls a fault is a next state (60_exceptions.md R231). -/
inductive Fault where
  /-- raised by `step` alone, when the port holds no complete command: the CORE waits and takes no step
  (70_reset_and_hazards.md R264; 93_implementation_defined.md section 2, "stuck"). Safe: nothing is claimed of what
  follows, and a host that sends the missing words finds the state unchanged. -/
  | awaitingWords
  deriving DecidableEq, Repr

/-- Why an instruction has no meaning. -/
inductive Refusal where
  /-- raised by an arm of `exec` for an instruction that is not modelled; no arm raises it. Safe. -/
  | notModelled (mnemonic : String)
  deriving DecidableEq, Repr

/-- What a step or a command answers. -/
abbrev Answer := Host.Outcome State Fault Refusal

end Sys2Proof.Machine
end

