-- ==== Sys2Proof/Machine/Flags.lean ====
section
/-! DEFINITION. The bits of FR_STATUS and SY_STATUS: who reads them and how each is set (10_state.md R32 and R45,
60_exceptions.md R230 and R231). -/

namespace Sys2Proof.Machine

open Sys2Proof

/-- The number of a fault code (60_exceptions.md R230). -/
def faultCodeByte : FaultCode → Byte
  | .illegalOpcode => 0x01
  | .reservedBits => 0x02
  | .badOperand => 0x03
  | .configError => 0x04
  | .alreadyConfigured => 0x05
  | .unconfigured => 0x06
  | .unitFaulted => 0x07
  | .badSize => 0x08
  | .outputOverflow => 0x09
  | .inputUnderrun => 0x0A

/-- CONFIGURED, bit 0 (10_state.md R32). -/
def isConfigured (status : Word) : Bool := status.getLsbD 0

/-- FAULTED, bit 1 (10_state.md R32). -/
def isFaulted (status : Word) : Bool := status.getLsbD 1

/-- SYNCERR, bit 2 of FR_STATUS (10_state.md R32). -/
def isSyncErr (status : Word) : Bool := status.getLsbD 2

/-- FAULTCODE, bits 15:8 (10_state.md R32). -/
def faultCodeField (status : Word) : Byte := status.extractLsb' 8 8

/-- `STATUS.CONFIGURED <- 1` (40_framer.md R120, 41_synth.md R170). -/
def setConfigured (status : Word) : Word := status ||| 0x00000001

/-- `FR_STATUS.SYNCERR <- 1` (40_framer.md R133). -/
def setSyncErr (status : Word) : Word := status ||| 0x00000004

/-- `STATUS.FAULTCODE <- c` (60_exceptions.md R231). -/
def setFaultCode (code : FaultCode) (status : Word) : Word :=
  (status &&& 0xFFFF00FF) ||| ((faultCodeByte code).zeroExtend 32 <<< 8)

/-- A unit's status after a fault: FAULTCODE takes the first code only, FAULTED is set (60_exceptions.md R231). -/
def recordFault (code : FaultCode) (status : Word) : Word :=
  (if isFaulted status then status else setFaultCode code status) ||| 0x00000002

end Sys2Proof.Machine
end

