-- ==== Sys2Proof/Machine/Operands.lean ====
section
/-! DEFINITION. The operand forms: the fields of the two packed configuration words (30_encoding.md R85), the legal
window entries (41_synth.md R170), the register numbers of RDREG (10_state.md R46) and the tables of RDTAB
(42_control.md R211). -/

namespace Sys2Proof.Machine

open Sys2Proof

/-- FRAMESIZE, bit 0: true = SHORT (10_state.md R21). -/
def frShort (cfg : Word) : Bool := cfg.getLsbD 0

/-- CODERATE, bits 6:4 (10_state.md R21). -/
def frRate (cfg : Word) : BitVec 3 := cfg.extractLsb' 4 3

/-- INPUTMODE, bit 8: true = HIGH-EFFICIENCY (10_state.md R21). -/
def frHem (cfg : Word) : Bool := cfg.getLsbD 8

/-- INBAND, bit 12: true = TYPE-B (10_state.md R21). -/
def frInband (cfg : Word) : Bool := cfg.getLsbD 12

/-- The reserved bits 3:1, 7, 11:9 and 31:13 of FR_CFG (10_state.md R21, 30_encoding.md R85). -/
def frCfgReserved : Word := 0xFFFFEE8E

/-- CARRIERMODE, bit 0: true = EXTENDED (10_state.md R35). -/
def syExtended (cfg : Word) : Bool := cfg.getLsbD 0

/-- FFTCODE, bits 6:4 (10_state.md R35). -/
def syFft (cfg : Word) : BitVec 3 := cfg.extractLsb' 4 3

/-- GICODE, bits 10:8 (10_state.md R35). -/
def syGi (cfg : Word) : BitVec 3 := cfg.extractLsb' 8 3

/-- The reserved bits 3:1, 7 and 31:11 of SY_CFG (10_state.md R35, 30_encoding.md R85). -/
def syCfgReserved : Word := 0xFFFFF88E

/-- The window entry is an infinity or a NaN: its binary32 exponent field is all ones (41_synth.md R170). -/
def nonFinite (x : Word) : Bool := x.extractLsb' 23 8 == 0xFF

/-- LOG_LEN: the number of diagnostic events, saturating at 2^32-1 (10_state.md R46). -/
def logLen (log : List Event) : Word := BitVec.ofNat 32 (min log.length 0xFFFFFFFF)

/-- The result words of a complex entry, `bits(z.re), bits(z.im)` (42_control.md R211). -/
def sampleWords (z : Sample) : List Word := [z.re, z.im]

/-- The value RDREG reads, zero-extended to 32 bits; a reserved number has none (10_state.md R46). -/
def readReg (s : State) (reg : Byte) : Option Word :=
  match reg.toNat with
  | 0x00 => some s.fr.status
  | 0x01 => some s.fr.cfg
  | 0x02 => some s.fr.fecBlocks
  | 0x03 => some s.fr.tsRate
  | 0x04 => some s.fr.kbch
  | 0x05 => some (s.fr.count.zeroExtend 32)
  | 0x06 => some (s.fr.crc.zeroExtend 32)
  | 0x07 => some s.fr.fecBlock
  | 0x08 => some s.fr.syncErr
  | 0x09 => some (s.fr.inPos.extractLsb' 0 32)
  | 0x0A => some (s.fr.inPos.extractLsb' 32 32)
  | 0x10 => some s.sy.status
  | 0x11 => some s.sy.cfg
  | 0x12 => some s.sy.nData
  | 0x13 => some s.sy.fftSize
  | 0x14 => some s.sy.np2
  | 0x15 => some s.sy.cps
  | 0x16 => some s.sy.gi
  | 0x17 => some s.sy.frameItems
  | 0x18 => some s.sy.insertionItems
  | 0x19 => some s.sy.scale
  | 0x20 => some (logLen s.log)
  | _ => none

/-- The result words RDTAB reads: one, or two for the complex tables 1 and 2; a table id or an index out of range has
none (42_control.md R211). -/
def readTab (s : State) (tab : Byte) (idx : BitVec 16) : Option (List Word) :=
  match tab.toNat with
  | 0 => if 255 < idx.toNat then none else some [(crc8Tab.getD idx.toNat 0).zeroExtend 32]
  | 1 => if 1023 < idx.toNat then none else some (sampleWords (s.sy.p1A.getD idx.toNat ⟨0, 0⟩))
  | 2 => if 1023 < idx.toNat then none else some (sampleWords (s.sy.p1Sh.getD idx.toNat ⟨0, 0⟩))
  | 3 => if 1023 < idx.toNat then none else some [s.sy.win.getD idx.toNat 0]
  | _ => none

end Sys2Proof.Machine
end

