-- ==== Sys2Proof/Machine/Ops.lean ====
section
/-! DEFINITION. The shared operations of every command: responding, logging, taking a fault (60_exceptions.md R231),
and taking and handing back the buffers of a work command (20_memory.md R60 to R62 and R69). There is no return from a fault: the way back is a unit reset
(60_exceptions.md R232; `execFrReset`, `execSyReset`). -/

namespace Sys2Proof.Machine

open Sys2Proof

/-- Delivers the one response that ends a command (30_encoding.md R81). -/
def respond (r : Response) (s : State) : State := { s with responses := s.responses ++ [r] }

/-- `log(event)` for each event in turn (10_state.md R31). -/
def logEvents (es : List Event) (s : State) : State := { s with log := s.log ++ es }

/-- The fault recorded in the status of the unit the opcode names, if it names one (60_exceptions.md R231). -/
def recordUnitFault (unit : Option UnitId) (code : FaultCode) (s : State) : State :=
  match unit with
  | some .fr => { s with fr := { s.fr with status := recordFault code s.fr.status } }
  | some .sy => { s with sy := { s.sy with status := recordFault code s.sy.status } }
  | none => s

/-- Taking a fault: the log entry, the unit's fault record, the response; nothing else (60_exceptions.md R231). -/
def raiseFault (unit : Option UnitId) (opc : Byte) (code : FaultCode) (s : State) : State :=
  respond (.fault code) (recordUnitFault unit code (logEvents [.fault unit code opc] s))

/-- A work command issued with no buffers has empty ones (log entry 2). -/
def noBuffers {α : Type} : Buffers α := { input := [], output := [], hostWrites := [] }

/-- The buffers handed over with the current FR_WORK (20_memory.md R60). -/
def handedFr (s : State) : Buffers Byte := s.frBufs.headD noBuffers

/-- The buffers handed over with the current SY_WORK (20_memory.md R60). -/
def handedSy (s : State) : Buffers Sample := s.syBufs.headD noBuffers

/-- The buffer after `out` was emitted into it from element 0 on: later elements are unchanged (20_memory.md R62). -/
def emitInto {α : Type} (out buffer : List α) : List α := out ++ buffer.drop out.length

/-- The buffer whose elements listed in `touched` hold free values: those the host wrote during the command
(70_reset_and_hazards.md R265). The first element has index j. -/
def overlay {α : Type} (free : Nat → α) (touched : List Nat) : Nat → List α → List α
  | _, [] => []
  | j, x :: xs => (if j ∈ touched then free j else x) :: overlay free touched (j + 1) xs

/-- The buffer with a free value in every element (20_memory.md R69). -/
def freeAll {α : Type} (free : Nat → α) (buffer : List α) : List α := (List.range buffer.length).map free

/-- Hands the buffers of the current FR_WORK back to the host, the output buffer holding `output`. -/
def returnFr (output : List Byte) (s : State) : State :=
  { s with
    frBufs := s.frBufs.tail
    frReturned := s.frReturned ++ [{ handedFr s with output := output }]
    draws := s.draws + 1 }

/-- Hands the buffers of the current SY_WORK back to the host, the output buffer holding `output`. -/
def returnSy (output : List Sample) (s : State) : State :=
  { s with
    syBufs := s.syBufs.tail
    syReturned := s.syReturned ++ [{ handedSy s with output := output }]
    draws := s.draws + 1 }

/-- A FR_WORK that completes hands its buffers back with `out` emitted (20_memory.md R62; 70_reset_and_hazards.md R265). -/
def completeFr (out : List Byte) (s : State) : State :=
  returnFr (overlay (Config.freeByte s.draws) (handedFr s).hostWrites 0 (emitInto out (handedFr s).output)) s

/-- A SY_WORK that completes hands its buffers back with `out` emitted (20_memory.md R62; 70_reset_and_hazards.md R265). -/
def completeSy (out : List Sample) (s : State) : State :=
  returnSy (overlay (Config.freeSample s.draws) (handedSy s).hostWrites 0 (emitInto out (handedSy s).output)) s

/-- A work command that faults hands its buffers back with the output contents unspecified: any value may be left in any
element (20_memory.md R69). Another command has no buffers. -/
def spoilBuffers (op : Opcode) (s : State) : State :=
  match op with
  | .frWork => returnFr (freeAll (Config.freeByte s.draws) (handedFr s).output) s
  | .syWork => returnSy (freeAll (Config.freeSample s.draws) (handedSy s).output) s
  | .nop | .frConfig | .frForecast | .frReset | .syConfig | .syForecast | .syReset | .rdreg | .rdtab => s

/-- A command with a listed opcode ends with a fault (60_exceptions.md R231, 20_memory.md R69). -/
def faultCommand (op : Opcode) (code : FaultCode) (s : State) : State :=
  raiseFault (opcodeUnit op) (opcodeByte op) code (spoilBuffers op s)

/-- A reserved opcode ends with ILLEGAL_OPCODE and names no unit (30_encoding.md R86, 60_exceptions.md R231). -/
def rejectIllegal (opc : Byte) (s : State) : State := raiseFault none opc .illegalOpcode s

/-- A nonzero must-be-zero bit ends with RESERVED_BITS of the unit the opcode names (30_encoding.md R86). -/
def rejectReserved (op : Opcode) (s : State) : State := faultCommand op .reservedBits s

/-- The command ends with `Ok(results)` (30_encoding.md R81). -/
def answerOk (results : List Word) (s : State) : Answer := .next (respond (.ok results) s)

/-- The command ends with `Fault(code)` (30_encoding.md R81, 60_exceptions.md R231). -/
def answerFault (op : Opcode) (code : FaultCode) (s : State) : Answer := .next (faultCommand op code s)

/-- The host sends words to the command port (30_encoding.md R80). -/
def sendWords (ws : List Word) (s : State) : State := { s with port := s.port ++ ws }

/-- The host hands buffers over for a coming FR_WORK (20_memory.md R60). -/
def handFr (b : Buffers Byte) (s : State) : State := { s with frBufs := s.frBufs ++ [b] }

/-- The host hands buffers over for a coming SY_WORK (20_memory.md R60). -/
def handSy (b : Buffers Sample) (s : State) : State := { s with syBufs := s.syBufs ++ [b] }

end Sys2Proof.Machine
end

