-- ==== Sys2Proof/Machine/Control.lean ====
section
/-! DEFINITION. The control commands: register and table reads, the unit resets, and NOP (42_control.md). -/

namespace Sys2Proof.Machine

open Sys2Proof

/-- NOP changes nothing and responds Ok() (42_control.md R214). -/
def execNop (s : State) : Answer := answerOk [] s

/-- RDREG reads a register; a reserved number faults (42_control.md R210, 10_state.md R46). -/
def execRdreg (reg : Byte) (s : State) : Answer :=
  match readReg s reg with
  | some v => answerOk [v] s
  | none => answerFault .rdreg .badOperand s

/-- RDTAB reads a table entry; a table id or an index out of range faults (42_control.md R211). -/
def execRdtab (tab : Byte) (idx : BitVec 16) (s : State) : Answer :=
  match readTab s tab idx with
  | some ws => answerOk ws s
  | none => answerFault .rdtab .badOperand s

/-- FR_RESET returns unit FR to its reset state, in every lifecycle state (42_control.md R212, 70_reset_and_hazards.md
R261). -/
def execFrReset (s : State) : Answer := answerOk [] { s with fr := FrUnit.reset }

/-- SY_RESET returns unit SY to its reset state, in every lifecycle state (42_control.md R213, 70_reset_and_hazards.md
R261). -/
def execSyReset (s : State) : Answer := answerOk [] { s with sy := SyUnit.reset }

end Sys2Proof.Machine
end

