-- ==== Sys2Proof/Machine/Tables.lean ====
section
/-! DEFINITION. The constant tables of the configuration (10_state.md R24, R37, R38; 41_synth.md R171) and the fixed
header fields (10_state.md R25). Most entries are the spec's general knowledge (log entry 12). -/

namespace Sys2Proof.Machine

open Sys2Proof

/-- kbch by FRAMESIZE (true = SHORT) and CODERATE (10_state.md R24). -/
def kbchTable (short : Bool) (rate : BitVec 3) : Nat :=
  match rate.toNat with
  | 0 => if short then 7032 else 32208
  | 1 => if short then 9552 else 38688
  | 2 => if short then 10632 else 43040
  | 3 => if short then 11712 else 48408
  | 4 => if short then 12432 else 51648
  | 5 => if short then 13152 else 53840
  | 6 => if short then 5232 else 21408
  | _ => if short then 6312 else 25728

/-- fft_size by FFTCODE (10_state.md R37); code 7 is illegal and has no entry, read here as 0 (41_synth.md R170 faults
before it is read). -/
def fftSizeTable (fft : BitVec 3) : Nat :=
  match fft.toNat with
  | 0 => 2048
  | 1 => 8192
  | 2 => 4096
  | 3 => 1024
  | 4 => 16384
  | 5 => 32768
  | 6 => 8192
  | _ => 0

/-- N_P2 by FFTCODE (10_state.md R37); code 7 as in `fftSizeTable`. -/
def np2Table (fft : BitVec 3) : Nat :=
  match fft.toNat with
  | 0 => 8
  | 1 => 2
  | 2 => 4
  | 3 => 16
  | 4 => 1
  | 5 => 1
  | 6 => 2
  | _ => 0

/-- C_PS by FFTCODE and CARRIERMODE (true = EXTENDED) (10_state.md R38); code 7 as in `fftSizeTable`. -/
def cpsTable (fft : BitVec 3) (extended : Bool) : Nat :=
  match fft.toNat with
  | 0 => 1705
  | 1 => if extended then 6913 else 6817
  | 2 => 3409
  | 3 => 853
  | 4 => if extended then 13921 else 13633
  | 5 => if extended then 27841 else 27265
  | 6 => if extended then 6913 else 6817
  | _ => 0

/-- `(GI_NUM, GI_DEN)` by GICODE (41_synth.md R171); code 7 is illegal and has no entry, read here as (0, 1). -/
def giTable (gi : BitVec 3) : Nat × Nat :=
  match gi.toNat with
  | 0 => (1, 32)
  | 1 => (1, 16)
  | 2 => (1, 8)
  | 3 => (1, 4)
  | 4 => (1, 128)
  | 5 => (19, 128)
  | 6 => (19, 256)
  | _ => (0, 1)

/-- TS/GS = 0b11, transport stream (10_state.md R25). -/
def tsGs : BitVec 2 := 0b11
/-- SIS/MIS = 1, single input stream (10_state.md R25). -/
def sisMis : BitVec 1 := 1
/-- CCM/ACM = 1, constant coding (10_state.md R25). -/
def ccmAcm : BitVec 1 := 1
/-- ISSYI = 0, not active (10_state.md R25). -/
def issyi : BitVec 1 := 0
/-- NPD = 0, not active (10_state.md R25). -/
def npd : BitVec 1 := 0
/-- RO = 0b00 (10_state.md R25). -/
def rollOff : BitVec 2 := 0b00
/-- ISI = 0x00 (10_state.md R25). -/
def inputStreamId : Byte := 0x00
/-- UPL = 1504 (10_state.md R25). -/
def userPacketLength : BitVec 16 := 1504
/-- SYNC = 0x47, the sync byte (00_scope.md R7, 10_state.md R25). -/
def syncByte : Byte := 0x47
/-- The transport packet size, 188 bytes (00_scope.md R7). -/
def packetSize : Nat := 188
/-- The baseband header width, CRC-8 included (00_scope.md R7). -/
def headerBits : Nat := 80
/-- The in-band Type B field width (00_scope.md R7). -/
def inbandBits : Nat := 104
/-- The samples of one inserted preamble (00_scope.md R7). -/
def preambleItems : Nat := 2048

end Sys2Proof.Machine
end

