-- ==== Sys2Proof/Machine/Framer.lean ====
section
/-! DEFINITION. The Baseband Framer's commands and the steps of one frame (40_framer.md). -/

namespace Sys2Proof.Machine

open Sys2Proof

/-! ## FR_CONFIG -/

/-- The first check of FR_CONFIG that fails, in the order of R120. -/
def frConfigCheck (w1 w2 w3 : Word) (u : FrUnit) : Option FaultCode :=
  if isFaulted u.status then some .unitFaulted
  else if isConfigured u.status then some .alreadyConfigured
  else if w1 &&& frCfgReserved ≠ 0 then some .badOperand
  else if frInband w1 = true ∧ w2 = 0 then some .configError
  else if 2 ^ 27 ≤ w3.toNat then some .configError
  else none

/-- Unit FR after a successful FR_CONFIG (R120). -/
def frConfigured (w1 w2 w3 : Word) (u : FrUnit) : FrUnit :=
  { u with
    status := setConfigured u.status
    cfg := w1
    fecBlocks := w2
    tsRate := w3
    kbch := BitVec.ofNat 32 (kbchTable (frShort w1) (frRate w1))
    count := 0
    crc := 0
    fecBlock := 0 }

/-- FR_CONFIG (R120, R121). -/
def execFrConfig (w1 w2 w3 : Word) (s : State) : Answer :=
  match frConfigCheck w1 w2 w3 s.fr with
  | some code => answerFault .frConfig code s
  | none => answerOk [(frConfigured w1 w2 w3 s.fr).kbch] { s with fr := frConfigured w1 w2 w3 s.fr }

/-! ## FR_FORECAST -/

/-- The checks of a forecast or work command: the unit is READY (R122, R124, R182, R183). -/
def readyCheck (status : Word) : Option FaultCode :=
  if isFaulted status then some .unitFaulted
  else if !isConfigured status then some .unconfigured
  else none

/-- The input bytes declared for n output bits (R122): the ceiling of (n - 80) / 8 in signed arithmetic, not below 0,
and one packet more in high-efficiency mode. -/
def frForecast (hem : Bool) (n : Nat) : Nat :=
  if n = 0 then 0
  else (max 0 (-((80 - (n : Int)) / 8))).toNat + (if hem then packetSize else 0)

/-- FR_FORECAST (R122). -/
def execFrForecast (n : Word) (s : State) : Answer :=
  match readyCheck s.fr.status with
  | some code => answerFault .frForecast code s
  | none => answerOk [BitVec.ofNat 32 (frForecast (frHem s.fr.cfg) n.toNat)] s

/-! ## The steps of one frame -/

/-- `padding`: the frame carries the in-band field exactly if it is the first of its FEC-block group and in-band
signalling is on (R127). -/
def framePadding (u : FrUnit) : Nat := if frInband u.cfg = true ∧ u.fecBlock = 0 then inbandBits else 0

/-- `dfl = kbch - 80 - padding` (R127). -/
def frameDfl (u : FrUnit) : Nat := u.kbch.toNat - headerBits - framePadding u

/-- The payload's byte slots, `dfl / 8` (R131). -/
def frameSlots (u : FrUnit) : Nat := frameDfl u / 8

/-- `syncd` from the counter before the frame's first payload byte (R128). -/
def frameSyncd (u : FrUnit) : Nat := if u.count = 0 then 0 else (packetSize - u.count.toNat) * 8

/-- The first 72 bits of the header (R128, 30_encoding.md R89). -/
def headerFields (u : FrUnit) : List Bool :=
  bitsMSB tsGs ++ bitsMSB sisMis ++ bitsMSB ccmAcm ++ bitsMSB issyi ++ bitsMSB npd ++ bitsMSB rollOff
    ++ bitsMSB inputStreamId ++ bitsMSB userPacketLength ++ bitsMSB (BitVec.ofNat 16 (frameDfl u))
    ++ bitsMSB syncByte ++ bitsMSB (BitVec.ofNat 16 (frameSyncd u))

/-- The 80-bit header: its CRC-8 covers the 72 field bits and is emitted LSB-first (R128, R129). -/
def frameHeader (u : FrUnit) : List Bool :=
  headerFields u ++ bitsLSB (headerCrc (frHem u.cfg) (headerFields u))

/-- `(count + 1) mod 188` (R132). -/
def nextCount (count : Byte) : Byte := BitVec.ofNat 8 ((count.toNat + 1) % packetSize)

/-- The events of the check of a byte at a packet start (R133). -/
def syncEvents (pos : BitVec 64) (b : Byte) : List Event := if b = syncByte then [] else [.syncError pos b]

/-- Unit FR after the check of a byte at a packet start (R133). -/
def syncCheck (b : Byte) (u : FrUnit) : FrUnit :=
  if b = syncByte then u
  else { u with syncErr := u.syncErr + 1, status := setSyncErr u.status }

/-- What one payload byte step does (R132). -/
structure ByteStep where
  /-- unit FR after the byte -/
  unit : FrUnit
  /-- the byte that fills a slot, if one is filled -/
  emitted : Option Byte
  /-- the synchronization error reported, if any -/
  events : List Event
  deriving DecidableEq, Repr

/-- One input byte b (R132). -/
def payloadByte (u : FrUnit) (b : Byte) : ByteStep :=
  let taken := { u with inPos := u.inPos + 1 }
  if u.count = 0 then
    let checked := syncCheck b taken
    if frHem u.cfg then
      { unit := { checked with count := nextCount u.count }, emitted := none, events := syncEvents u.inPos b }
    else
      { unit := { checked with count := nextCount u.count, crc := 0 }, emitted := some u.crc,
        events := syncEvents u.inPos b }
  else if frHem u.cfg then
    { unit := { taken with count := nextCount u.count }, emitted := some b, events := [] }
  else
    { unit := { taken with count := nextCount u.count, crc := crc8Fold u.crc b }, emitted := some b, events := [] }

/-- What filling payload slots does (R131, R132). -/
structure PayloadRun where
  /-- unit FR after the last byte -/
  unit : FrUnit
  /-- the payload bytes, in order -/
  bytes : List Byte
  /-- the synchronization errors, in order -/
  events : List Event
  /-- the input not taken -/
  rest : List Byte
  deriving DecidableEq, Repr

/-- Takes input bytes until the slots are filled (R131, R132). FR_WORK runs it only on an input that has enough bytes
(R126); an input that runs out leaves the slots unfilled. -/
def payloadRun (u : FrUnit) (slots : Nat) : List Byte → PayloadRun
  | [] => { unit := u, bytes := [], events := [], rest := [] }
  | b :: bs =>
    if slots = 0 then { unit := u, bytes := [], events := [], rest := b :: bs }
    else
      let st := payloadByte u b
      let tail := payloadRun st.unit (slots - st.emitted.toList.length) bs
      { tail with bytes := st.emitted.toList ++ tail.bytes, events := st.events ++ tail.events }

/-- The 104 bits of the in-band Type B field (R134, 30_encoding.md R90). -/
def inbandField (tsRate : Word) : List Bool :=
  [false, true] ++ List.replicate 65 false ++ bitsMSB (tsRate.extractLsb' 0 27) ++ List.replicate 10 false

/-- The FEC-block counter at the end of a frame (R135). -/
def advanceFecBlock (u : FrUnit) : FrUnit :=
  if frInband u.cfg then { u with fecBlock := BitVec.ofNat 32 ((u.fecBlock.toNat + 1) % u.fecBlocks.toNat) } else u

/-- What emitting frames does. -/
structure FrameRun where
  /-- unit FR after the last frame -/
  unit : FrUnit
  /-- the bits emitted, in order -/
  bits : List Bool
  /-- the synchronization errors, in order -/
  events : List Event
  /-- the input not taken -/
  rest : List Byte
  deriving DecidableEq, Repr

/-- `frame()`: header, payload, in-band field, FEC-block counter (R124, R127 to R135). -/
def frameRun (u : FrUnit) (input : List Byte) : FrameRun :=
  let body := payloadRun u (frameSlots u) input
  { unit := advanceFecBlock body.unit
    bits := frameHeader u ++ body.bytes.flatMap (fun v => bitsMSB v)
      ++ (if framePadding u = 0 then [] else inbandField u.tsRate)
    events := body.events
    rest := body.rest }

/-- k frames back to back (R124). -/
def framesRun : Nat → FrUnit → List Byte → FrameRun
  | 0, u, input => { unit := u, bits := [], events := [], rest := input }
  | k + 1, u, input =>
    let first := frameRun u input
    let later := framesRun k first.unit first.rest
    { later with bits := first.bits ++ later.bits, events := first.events ++ later.events }

/-! ## FR_WORK -/

/-- The bytes taken to fill slots from counter c, and the counter after them (R123): a slot takes its byte, after a
dropped sync byte where the counter stands at 0 in high-efficiency mode. -/
def needSlots (hem : Bool) : Nat → Nat → Nat × Nat
  | 0, c => (0, c)
  | slots + 1, c =>
    let start := if c = 0 ∧ hem = true then (1, (c + 1) % packetSize) else (0, c)
    let later := needSlots hem slots ((start.2 + 1) % packetSize)
    (start.1 + 1 + later.1, later.2)

/-- The bytes taken by k frames from counter c and FEC block f (R123). -/
def needFrames (u : FrUnit) : Nat → Nat → Nat → Nat
  | 0, _, _ => 0
  | k + 1, c, f =>
    let pad := if frInband u.cfg = true ∧ f = 0 then inbandBits else 0
    let taken := needSlots (frHem u.cfg) ((u.kbch.toNat - headerBits - pad) / 8) c
    taken.1 + needFrames u k taken.2 (if frInband u.cfg then (f + 1) % u.fecBlocks.toNat else f)

/-- `need(N)` (R123). -/
def need (u : FrUnit) (n : Nat) : Nat := needFrames u (n / u.kbch.toNat) u.count.toNat u.fecBlock.toNat

/-- The first check of FR_WORK that fails (R124 to R126). -/
def frWorkCheck (n : Nat) (b : Buffers Byte) (u : FrUnit) : Option FaultCode :=
  match readyCheck u.status with
  | some code => some code
  | none =>
    if n % u.kbch.toNat ≠ 0 then some .badSize
    else if b.output.length < n then some .outputOverflow
    else if b.input.length < need u n then some .inputUnderrun
    else none

/-- The frames of FR_WORK N (R124). -/
def frWorkRun (n : Nat) (b : Buffers Byte) (u : FrUnit) : FrameRun := framesRun (n / u.kbch.toNat) u b.input

/-- `consumed`, the input bytes a run has taken (R124). -/
def frConsumed (b : Buffers Byte) (run : FrameRun) : Nat := b.input.length - run.rest.length

/-- FR_WORK (R124). -/
def execFrWork (n : Word) (s : State) : Answer :=
  match frWorkCheck n.toNat (handedFr s) s.fr with
  | some code => answerFault .frWork code s
  | none =>
    let run := frWorkRun n.toNat (handedFr s) s.fr
    answerOk [BitVec.ofNat 32 (frConsumed (handedFr s) run), n]
      { logEvents run.events (completeFr (elements run.bits) s) with fr := run.unit }

end Sys2Proof.Machine
end

