-- ==== Sys2Proof/Machine/Float.lean ====
section
/-! DEFINITION. The binary32 arithmetic of the Synthesizer: the product of the data-sample scaling (41_synth.md R186)
and the normalization constant (10_state.md R41, 41_synth.md R171), each an exact natural number rounded once. -/

namespace Sys2Proof.Machine

open Sys2Proof

/-- The exponent field of a binary32 encoding. -/
def expField (x : Word) : Nat := (x.extractLsb' 23 8).toNat

/-- The fraction field of a binary32 encoding. -/
def fracField (x : Word) : Nat := (x.extractLsb' 0 23).toNat

/-- The encoding is a NaN. -/
def isNaN (x : Word) : Bool := expField x == 255 && fracField x != 0

/-- The encoding is an infinity. -/
def isInf (x : Word) : Bool := expField x == 255 && fracField x == 0

/-- The significand of a finite encoding, with its hidden bit where it has one: the magnitude is
`significand x * 2 ^ scaleExp x / 2 ^ 150`. -/
def significand (x : Word) : Nat := if expField x = 0 then fracField x else fracField x + 2 ^ 23

/-- The exponent that goes with `significand`. -/
def scaleExp (x : Word) : Nat := if expField x = 0 then 1 else expField x

/-- m / 2^d to the nearest natural number, ties to even. -/
def shiftRightEven (m d : Nat) : Nat :=
  let q := m / 2 ^ d
  let r := m % 2 ^ d
  if 2 ^ d < 2 * r ∨ (2 * r = 2 ^ d ∧ q % 2 = 1) then q + 1 else q

/-- The magnitude bits of RN32(m * 2^e / 2^300), ties to even, with gradual underflow, and an infinity where the rounded
value is out of range (00_scope.md R13). The exponent field is chosen so that the significand has 24 bits, or is that
of the subnormals; rounding up to 2^24 carries into the exponent field. -/
def roundMagnitude (m e : Nat) : Nat :=
  let field := max 1 (Nat.log2 m + 1 + e - 174)
  let q := if e ≤ field + 150 then shiftRightEven m (field + 150 - e) else m * 2 ^ (e - (field + 150))
  min ((field - 1) * 2 ^ 23 + q) (255 * 2 ^ 23)

/-- An encoding from its sign and its magnitude bits. -/
def withSign (negative : Bool) (magnitude : Nat) : Word :=
  BitVec.ofNat 32 (magnitude + (if negative then 2 ^ 31 else 0))

/-- The quiet NaN with a free sign and payload (41_synth.md R186; log entry 10). -/
def quietNaN (x c : Word) : Word :=
  withSign (Config.nanSign x c) (255 * 2 ^ 23 + 2 ^ 22 + (Config.nanPayload x c).toNat)

/-- `mul32(x, c)`: the IEEE 754 binary32 product (41_synth.md R186). An infinity times a zero is invalid and gives a
quiet NaN; the scaling never meets it, since its constant is a positive finite value. -/
def mul32 (x c : Word) : Word :=
  if isNaN x || isNaN c then quietNaN x c
  else if isInf x || isInf c then
    if significand x = 0 ∨ significand c = 0 then quietNaN x c
    else withSign (x.msb ^^ c.msb) (255 * 2 ^ 23)
  else
    withSign (x.msb ^^ c.msb)
      (if significand x = 0 ∨ significand c = 0 then 0
       else roundMagnitude (significand x * significand c) (scaleExp x + scaleExp c))

/-- A data sample scaled by a binary32 constant, each part on its own (41_synth.md R186, R188). -/
def scaleSample (c : Word) (z : Sample) : Sample := { re := mul32 z.re c, im := mul32 z.im c }

/-- The largest natural number whose square is at most n, by its bits from bit b - 1 down; r holds the bits found. -/
def sqrtBits (n : Nat) : Nat → Nat → Nat
  | 0, r => r
  | b + 1, r => sqrtBits n b (if (r + 2 ^ b) * (r + 2 ^ b) ≤ n then r + 2 ^ b else r)

/-- The binary32 encoding of RN32(5 / sqrt(27 * cps)) = RN32(sqrt(25 / (27 * cps))) (10_state.md R41, 41_synth.md
R171): 40 fraction bits of the root and a sticky bit, rounded once. -/
def scaleConstant (cps : Nat) : Word :=
  let radicand := 25 * 2 ^ 80
  let root := sqrtBits (radicand / (27 * cps)) 43 0
  let sticky := if root * root * (27 * cps) = radicand then 0 else 1
  BitVec.ofNat 32 (roundMagnitude (2 * root + sticky) 259)

end Sys2Proof.Machine
end

