-- ==== Sys2Proof/Machine/Waveform.lean ====
section
/-! DEFINITION. The waveform precomputation of SY_CONFIG (41_synth.md R173 to R180). The exact complex values are written
down as their sums of terms, so nothing is rounded before `P1_ROUND`. -/

namespace Sys2Proof.Machine

open Sys2Proof

/-- `S1 = S1_ROWS[0]`, byte 0 first, each byte MSB-first (R174). -/
def s1Bits : List Bool := (List.finRange 8).flatMap fun j => bitsMSB (Config.s1Rows 0 j)

/-- `S2 = S2_ROWS[2 x fftCode]`, byte 0 first, each byte MSB-first (R174). -/
def s2Bits (fft : BitVec 3) : List Bool :=
  (List.finRange 32).flatMap fun j => bitsMSB (Config.s2Rows (Fin.ofNat 16 (2 * fft.toNat)) j)

/-- The 384-bit signalling sequence `m = {S1, S2, S1}` (R174). -/
def signalling (fft : BitVec 3) : List Bool := s1Bits ++ s2Bits fft ++ s1Bits

/-- `d[1], d[2], ...` from `d[0] = prev` by `d[i] = d[i-1] xor m[i-1]` (R175). -/
def diffEncode (prev : Bool) : List Bool → List Bool
  | [] => []
  | m :: ms => (prev ^^ m) :: diffEncode (prev ^^ m) ms

/-- The XOR of the two tapped bits of the scrambling register (R176). -/
def tapXor (r : BitVec 18) : Bool := r.getLsbD Config.p1PrbsTaps.tapA.val ^^ r.getLsbD Config.p1PrbsTaps.tapB.val

/-- The next k bits of the scrambling sequence from register r (R176). -/
def scrambling : Nat → BitVec 18 → List Bool
  | 0, _ => []
  | k + 1, r => Config.p1PrbsTaps.output r (tapXor r) :: scrambling k (Config.p1PrbsTaps.shift r (tapXor r))

/-- Bit 0 maps to +1, bit 1 to -1 (R177). -/
def bitSign (b : Bool) : Int := if b then -1 else 1

/-- The modulation values `s[0..383]` (R177). -/
def modulation (fft : BitVec 3) : List Int :=
  List.zipWith (fun d p => bitSign d * bitSign p) (diffEncode true (signalling fft)) (scrambling 384 0x4E46)

/-- The bins `P1_CARRIERS[i] + 86`, i = 0..383 (R178). -/
def carrierBins : List Nat := (List.finRange 384).map fun i => (Config.p1CarrierOrder (i.castLE (by decide))).val + 86

/-- The spectrum `X[k]`: `s[i]` at the bin of carrier i, 0 at every other bin (R178). -/
def spectrum (fft : BitVec 3) (k : Nat) : Int := ((carrierBins.zip (modulation fft)).lookup k).getD 0

/-- The shifted spectrum: `Xs[(k + 1) mod 1024] = X[k]` (R178). -/
def shiftedSpectrum (fft : BitVec 3) (k : Nat) : Int := spectrum fft ((k + 1023) % 1024)

/-- `T(Z)[n]` for the window W, as the exact sum it is (R179): the window multiplies bin k, which the FFT-shift then
places at `(k + 512) mod 1024`. -/
def transform (z : Nat → Int) (window : List Word) (n : Nat) : ExactValue :=
  (List.range 1024).map fun k =>
    { level := z k, weight := window.getD k 0, turn := (k + 512) % 1024 * n % 1024 }

/-- `A_exact` (R179). -/
def exactA (fft : BitVec 3) (window : List Word) : Nat → ExactValue := transform (spectrum fft) window

/-- `SH_exact` (R179). -/
def exactSh (fft : BitVec 3) (window : List Word) : Nat → ExactValue := transform (shiftedSpectrum fft) window

/-- The 1024 stored samples of an exact waveform (R180). -/
def storedWaveform (exact : Nat → ExactValue) : List Sample := (List.range 1024).map (Config.p1Round exact)

end Sys2Proof.Machine
end

