-- ==== Sys2Proof/Machine/Synth.lean ====
section
/-! DEFINITION. The Preamble Synthesizer's commands (41_synth.md). -/

namespace Sys2Proof.Machine

open Sys2Proof

/-! ## SY_CONFIG -/

/-- The exact guard interval, `fft_size * GI_NUM / GI_DEN` (R171). -/
def guardInterval (w1 : Word) : Nat := fftSizeTable (syFft w1) * (giTable (syGi w1)).1 / (giTable (syGi w1)).2

/-- The exact frame_items, `(numDataSymbols + N_P2) * (fft_size + guard_interval)` (R171). -/
def frameItemsOf (w1 w2 : Word) : Nat :=
  (w2.toNat + np2Table (syFft w1)) * (fftSizeTable (syFft w1) + guardInterval w1)

/-- The exact insertion_items, `frame_items + 2048` (R171). -/
def insertionItemsOf (w1 w2 : Word) : Nat := frameItemsOf w1 w2 + preambleItems

/-- The first check of SY_CONFIG that fails, in the order of R170 and R172. -/
def syConfigCheck (w1 w2 : Word) (window : List Word) (u : SyUnit) : Option FaultCode :=
  if isFaulted u.status then some .unitFaulted
  else if isConfigured u.status then some .alreadyConfigured
  else if w1 &&& syCfgReserved ≠ 0 then some .badOperand
  else if syFft w1 = 7 ∨ syGi w1 = 7 then some .configError
  else if window.any nonFinite = true then some .configError
  else if 2 ^ 32 ≤ insertionItemsOf w1 w2 then some .configError
  else none

/-- Unit SY after a successful SY_CONFIG (R170, R171, R180). -/
def syConfigured (w1 w2 : Word) (window : List Word) (u : SyUnit) : SyUnit :=
  { status := setConfigured u.status
    cfg := w1
    nData := w2
    fftSize := BitVec.ofNat 32 (fftSizeTable (syFft w1))
    np2 := BitVec.ofNat 32 (np2Table (syFft w1))
    cps := BitVec.ofNat 32 (cpsTable (syFft w1) (syExtended w1))
    gi := BitVec.ofNat 32 (guardInterval w1)
    frameItems := BitVec.ofNat 32 (frameItemsOf w1 w2)
    insertionItems := BitVec.ofNat 32 (insertionItemsOf w1 w2)
    scale := scaleConstant (cpsTable (syFft w1) (syExtended w1))
    win := window
    p1A := storedWaveform (exactA (syFft w1) window)
    p1Sh := storedWaveform (exactSh (syFft w1) window) }

/-- SY_CONFIG (R170 to R180). -/
def execSyConfig (w1 w2 : Word) (window : List Word) (s : State) : Answer :=
  match syConfigCheck w1 w2 window s.sy with
  | some code => answerFault .syConfig code s
  | none => answerOk [(syConfigured w1 w2 window s.sy).insertionItems] { s with sy := syConfigured w1 w2 window s.sy }

/-! ## SY_FORECAST -/

/-- The input samples for n output samples, `frame_items * floor(n / insertion_items)` (R182). -/
def syForecast (u : SyUnit) (n : Nat) : Nat := u.frameItems.toNat * (n / u.insertionItems.toNat)

/-- SY_FORECAST (R182). -/
def execSyForecast (n : Word) (s : State) : Answer :=
  match readyCheck s.sy.status with
  | some code => answerFault .syForecast code s
  | none => answerOk [BitVec.ofNat 32 (syForecast s.sy n.toNat)] s

/-! ## SY_WORK -/

/-- The first check of SY_WORK that fails (R183, R184). -/
def syWorkCheck (n : Nat) (b : Buffers Sample) (u : SyUnit) : Option FaultCode :=
  match readyCheck u.status with
  | some code => some code
  | none =>
    if n % u.insertionItems.toNat ≠ 0 then some .badSize
    else if b.output.length < n then some .outputOverflow
    else if b.input.length < n / u.insertionItems.toNat * u.frameItems.toNat then some .inputUnderrun
    else none

/-- The 2048 preamble samples of a chunk: the last 482 samples of P1_SH, P1_A, the first 542 samples of P1_SH (R185). -/
def preamble (u : SyUnit) : List Sample := u.p1Sh.drop 542 ++ u.p1A ++ u.p1Sh.take 542

/-- One chunk: the preamble, then the next frame_items input samples scaled (R185, R186). -/
def chunk (u : SyUnit) (input : List Sample) : List Sample :=
  preamble u ++ (input.take u.frameItems.toNat).map (scaleSample u.scale)

/-- k chunks back to back, each taking the input the one before left (R183). -/
def chunks (u : SyUnit) : Nat → List Sample → List Sample
  | 0, _ => []
  | k + 1, input => chunk u input ++ chunks u k (input.drop u.frameItems.toNat)

/-- SY_WORK (R183); it writes no register and no table (10_state.md R34). -/
def execSyWork (n : Word) (s : State) : Answer :=
  match syWorkCheck n.toNat (handedSy s) s.sy with
  | some code => answerFault .syWork code s
  | none =>
    let k := n.toNat / s.sy.insertionItems.toNat
    answerOk [BitVec.ofNat 32 (k * s.sy.frameItems.toNat), n] (completeSy (chunks s.sy k (handedSy s).input) s)

end Sys2Proof.Machine
end

