-- ==== Sys2Proof/Machine/Dispatch.lean ====
section
/-! DEFINITION. The meaning of every command, one arm per constructor of `Instr`. -/

namespace Sys2Proof.Machine

open Sys2Proof

def exec (i : Instr) (s : State) : Host.Outcome State Fault Refusal :=
  match i with
  | .nop => Sys2Proof.Machine.execNop s
  | .frConfig w1 w2 w3 => Sys2Proof.Machine.execFrConfig w1 w2 w3 s
  | .frForecast n => Sys2Proof.Machine.execFrForecast n s
  | .frWork n => Sys2Proof.Machine.execFrWork n s
  | .frReset => Sys2Proof.Machine.execFrReset s
  | .syConfig w1 w2 window => Sys2Proof.Machine.execSyConfig w1 w2 window s
  | .syForecast n => Sys2Proof.Machine.execSyForecast n s
  | .syWork n => Sys2Proof.Machine.execSyWork n s
  | .syReset => Sys2Proof.Machine.execSyReset s
  | .rdreg reg => Sys2Proof.Machine.execRdreg reg s
  | .rdtab tab idx => Sys2Proof.Machine.execRdtab tab idx s

end Sys2Proof.Machine
end

