-- ==== Sys2Proof/Machine/Reset.lean ====
section
/-! DEFINITION. Power-on reset, and the command it abandons (70_reset_and_hazards.md R260 and R262). The unit resets are
commands (Control.lean). -/

namespace Sys2Proof.Machine

open Sys2Proof

/-- How many output elements the command emits from this state if nothing cuts it off: a work command that faults emits
none, since its checks precede the first write (40_framer.md R124 and R126, 41_synth.md R183). -/
def emitCount (i : Instr) (s : State) : Nat :=
  match i with
  | .frWork n => if (frWorkCheck n.toNat (handedFr s) s.fr).isSome then 0 else n.toNat
  | .syWork n => if (syWorkCheck n.toNat (handedSy s) s.sy).isSome then 0 else n.toNat
  | .nop | .frConfig _ _ _ | .frForecast _ | .frReset | .syConfig _ _ _ | .syForecast _ | .syReset => 0
  | .rdreg _ | .rdtab _ _ => 0

/-- How many output elements an abandoned command had written: any number up to what it emits (R262; log entry 6). -/
def writtenCount (emits : Nat) (s : State) : Nat := min (Config.freeCount s.draws) emits

/-- The output buffer that an abandoned command leaves: the elements it had written, from element 0 on (20_memory.md R62),
and those the host wrote meanwhile (R265) hold free values; every other element is unchanged (R262). -/
def abandonedOutput {α : Type} (free : Nat → α) (written : Nat) (b : Buffers α) : List α :=
  overlay free b.hostWrites 0 (emitInto ((List.range written).map free) b.output)

/-- The buffers of an abandoned work command that emits `emits` elements are handed back. Another command has none. -/
def abandonBuffers (op : Opcode) (emits : Nat) (s : State) : State :=
  match op with
  | .frWork => returnFr (abandonedOutput (Config.freeByte s.draws) (writtenCount emits s) (handedFr s)) s
  | .syWork => returnSy (abandonedOutput (Config.freeSample s.draws) (writtenCount emits s) (handedSy s)) s
  | .nop | .frConfig | .frForecast | .frReset | .syConfig | .syForecast | .syReset | .rdreg | .rdtab => s

/-- The command that power-on reset abandons is taken from the port without a response; words that are no complete
command are forgotten (R262; log entry 6). A command that decoding rejects has written nothing. -/
def abandonCommand (s : State) : State :=
  match decode s.port with
  | .wait => { s with port := [] }
  | .illegal _ rest => { s with port := rest }
  | .reserved op rest => abandonBuffers op 0 { s with port := rest }
  | .instr i rest => abandonBuffers i.opcode (emitCount i s) { s with port := rest }

/-- Power-on reset (R260, R262): both units and the log as R260 says; what the host holds stays with the host. -/
def powerOnReset (s : State) : State :=
  { abandonCommand s with fr := FrUnit.reset, sy := SyUnit.reset, log := [], resetPin := false }

end Sys2Proof.Machine
end

