-- ==== Sys2Proof/Machine/Step.lean ====
section
/-! DEFINITION. One step: the next command is taken from the port and executed (20_memory.md R71,
70_reset_and_hazards.md R264), or power-on reset arrives (70_reset_and_hazards.md R262). -/

namespace Sys2Proof.Machine

open Sys2Proof

/-- One step of the CORE. Commands are taken from the port in order, each with all its words (R71, R264); a word that
is no command faults by name (30_encoding.md R86); with no complete command the CORE takes no step (R264). -/
def step (s : State) : Host.Outcome State Fault Refusal :=
  if s.resetPin = true then .next (powerOnReset s)
  else
    match decode s.port with
    | .wait => .fault .awaitingWords
    | .illegal opc rest => .next (rejectIllegal opc { s with port := rest })
    | .reserved op rest => .next (rejectReserved op { s with port := rest })
    | .instr i rest => exec i { s with port := rest }

/-- The instruction whose bits are w at the head of the port, so that the very next step runs it: the host has sent its
words, and no power-on reset arrives. -/
def State.withFetchWord (s : State) (nbits w : Nat) : State :=
  { s with port := tableWords nbits w ++ s.port, resetPin := false }

end Sys2Proof.Machine
end

