-- ==== Sys2Proof/Machine/Asm.lean ====
section
/-! DEFINITION. The assembler lines of 30_encoding.md R87: one command per line, with the enumerated operands in the
codes of 10_state.md R21 and R35. It has no effect on behaviour. -/

namespace Sys2Proof.Machine

open Sys2Proof

/-- FRAMESIZE (10_state.md R21). -/
inductive FrameSize where | normal | short
  deriving DecidableEq, Repr
/-- CODERATE (10_state.md R21). -/
inductive CodeRate where | r12 | r35 | r23 | r34 | r45 | r56 | r13 | r25
  deriving DecidableEq, Repr
/-- INPUTMODE (10_state.md R21). -/
inductive InputMode where | nm | hem
  deriving DecidableEq, Repr
/-- INBAND (10_state.md R21). -/
inductive InbandMode where | none | typeb
  deriving DecidableEq, Repr
/-- CARRIERMODE (10_state.md R35). -/
inductive CarrierMode where | normal | extended
  deriving DecidableEq, Repr
/-- FFTCODE (10_state.md R35). -/
inductive FftClass where | k2 | k8 | k4 | k1 | k16 | k32 | k8T2gi
  deriving DecidableEq, Repr
/-- GICODE (10_state.md R35). -/
inductive GuardFraction where | g1of32 | g1of16 | g1of8 | g1of4 | g1of128 | g19of128 | g19of256
  deriving DecidableEq, Repr
/-- The tables of RDTAB (10_state.md R46). -/
inductive TableName where | crc8 | p1a | p1sh | win
  deriving DecidableEq, Repr

/-- One assembler line (30_encoding.md R87). -/
inductive AsmLine where
  | frConfig (size : FrameSize) (rate : CodeRate) (mode : InputMode) (inband : InbandMode) (fecBlocks tsRate : Word)
  | frForecast (n : Word)
  | frWork (n : Word)
  | syConfig (mode : CarrierMode) (fft : FftClass) (gi : GuardFraction) (nData : Word) (window : String)
  | syForecast (n : Word)
  | syWork (n : Word)
  | rdreg (register : String)
  | rdtab (table : TableName) (idx : BitVec 16)
  | nop
  | frReset
  | syReset
  deriving DecidableEq, Repr

def frameSizeCode : FrameSize → BitVec 1
  | .normal => 0 | .short => 1

def codeRateCode : CodeRate → BitVec 3
  | .r12 => 0 | .r35 => 1 | .r23 => 2 | .r34 => 3 | .r45 => 4 | .r56 => 5 | .r13 => 6 | .r25 => 7

def inputModeCode : InputMode → BitVec 1
  | .nm => 0 | .hem => 1

def inbandCode : InbandMode → BitVec 1
  | .none => 0 | .typeb => 1

def carrierModeCode : CarrierMode → BitVec 1
  | .normal => 0 | .extended => 1

def fftCode : FftClass → BitVec 3
  | .k2 => 0 | .k8 => 1 | .k4 => 2 | .k1 => 3 | .k16 => 4 | .k32 => 5 | .k8T2gi => 6

def giCode : GuardFraction → BitVec 3
  | .g1of32 => 0 | .g1of16 => 1 | .g1of8 => 2 | .g1of4 => 3 | .g1of128 => 4 | .g19of128 => 5 | .g19of256 => 6

def tableId : TableName → Byte
  | .crc8 => 0 | .p1a => 1 | .p1sh => 2 | .win => 3

/-- The packed configuration word of `fr.config`, fields in their places, reserved bits 0 (10_state.md R21). -/
def frCfgWord (size : FrameSize) (rate : CodeRate) (mode : InputMode) (inband : InbandMode) : Word :=
  (0 : BitVec 19) ++ inbandCode inband ++ (0 : BitVec 3) ++ inputModeCode mode ++ (0 : BitVec 1) ++ codeRateCode rate
    ++ (0 : BitVec 3) ++ frameSizeCode size

/-- The packed configuration word of `sy.config`, fields in their places, reserved bits 0 (10_state.md R35). -/
def syCfgWord (mode : CarrierMode) (fft : FftClass) (gi : GuardFraction) : Word :=
  (0 : BitVec 21) ++ giCode gi ++ (0 : BitVec 1) ++ fftCode fft ++ (0 : BitVec 3) ++ carrierModeCode mode

/-- The register names of 10_state.md R46 with their numbers. -/
def registerNumbers : List (String × Byte) :=
  [("FR_STATUS", 0x00), ("FR_CFG", 0x01), ("FR_FECBLOCKS", 0x02), ("FR_TSRATE", 0x03), ("FR_KBCH", 0x04),
   ("FR_COUNT", 0x05), ("FR_CRC", 0x06), ("FR_FECBLOCK", 0x07), ("FR_SYNCERR", 0x08), ("FR_INPOS_LO", 0x09),
   ("FR_INPOS_HI", 0x0A)]
  ++ [("SY_STATUS", 0x10), ("SY_CFG", 0x11), ("SY_NDATA", 0x12), ("SY_FFTSIZE", 0x13), ("SY_NP2", 0x14),
   ("SY_CPS", 0x15), ("SY_GI", 0x16), ("SY_FRAME_ITEMS", 0x17), ("SY_INSERTION_ITEMS", 0x18), ("SY_SCALE", 0x19)]
  ++ [("LOG_LEN", 0x20)]

/-- The command of an assembler line; a window label or a register name that does not exist has none (30_encoding.md
R87). -/
def assemble (windows : List (String × List Word)) : AsmLine → Option Instr
  | .frConfig size rate mode inband fecBlocks tsRate =>
    some (.frConfig (frCfgWord size rate mode inband) fecBlocks tsRate)
  | .frForecast n => some (.frForecast n)
  | .frWork n => some (.frWork n)
  | .syConfig mode fft gi nData window => (windows.lookup window).map fun w => .syConfig (syCfgWord mode fft gi) nData w
  | .syForecast n => some (.syForecast n)
  | .syWork n => some (.syWork n)
  | .rdreg register => (registerNumbers.lookup register).map fun r => .rdreg r
  | .rdtab table idx => some (.rdtab (tableId table) idx)
  | .nop => some .nop
  | .frReset => some .frReset
  | .syReset => some .syReset

def frameSizeText : FrameSize → String
  | .normal => "normal" | .short => "short"

def codeRateText : CodeRate → String
  | .r12 => "1/2" | .r35 => "3/5" | .r23 => "2/3" | .r34 => "3/4" | .r45 => "4/5" | .r56 => "5/6" | .r13 => "1/3"
  | .r25 => "2/5"

def inputModeText : InputMode → String
  | .nm => "nm" | .hem => "hem"

def inbandText : InbandMode → String
  | .none => "none" | .typeb => "typeb"

def carrierModeText : CarrierMode → String
  | .normal => "normal" | .extended => "extended"

def fftText : FftClass → String
  | .k2 => "2k" | .k8 => "8k" | .k4 => "4k" | .k1 => "1k" | .k16 => "16k" | .k32 => "32k" | .k8T2gi => "8k-t2gi"

def giText : GuardFraction → String
  | .g1of32 => "1/32" | .g1of16 => "1/16" | .g1of8 => "1/8" | .g1of4 => "1/4" | .g1of128 => "1/128"
  | .g19of128 => "19/128" | .g19of256 => "19/256"

def tableText : TableName → String
  | .crc8 => "crc8" | .p1a => "p1a" | .p1sh => "p1sh" | .win => "win"

/-- Operands of a line, separated by commas (30_encoding.md R87). -/
def operandsText (operands : List String) : String := String.intercalate ", " operands

/-- The text of an assembler line (30_encoding.md R87). -/
def asmText : AsmLine → String
  | .frConfig size rate mode inband fecBlocks tsRate =>
    "fr.config " ++ operandsText [frameSizeText size, codeRateText rate, inputModeText mode, inbandText inband,
      toString fecBlocks.toNat, toString tsRate.toNat]
  | .frForecast n => "fr.forecast " ++ toString n.toNat
  | .frWork n => "fr.work " ++ toString n.toNat
  | .syConfig mode fft gi nData window =>
    "sy.config " ++ operandsText [carrierModeText mode, fftText fft, giText gi, toString nData.toNat, window]
  | .syForecast n => "sy.forecast " ++ toString n.toNat
  | .syWork n => "sy.work " ++ toString n.toNat
  | .rdreg register => "rdreg " ++ register
  | .rdtab table idx => "rdtab " ++ operandsText [tableText table, toString idx.toNat]
  | .nop => "nop"
  | .frReset => "fr.reset"
  | .syReset => "sy.reset"

end Sys2Proof.Machine
end

