-- ==== Sys2Proof/Machine/Exact.lean ====
section
/-! DEFINITION. What the exact waveform terms and the binary32 encodings stand for, as numbers (00_scope.md R13,
41_synth.md R173 and R179). Statements about the exact waveforms are made through these; no step uses them. -/

namespace Sys2Proof.Machine

open Sys2Proof

/-- The exact real value of a finite binary32 encoding (41_synth.md R173). -/
def binary32Value (x : Word) : ℚ :=
  (if x.msb then -1 else 1) * (significand x : ℚ) * 2 ^ scaleExp x / 2 ^ 150

/-- The encoding stands for a real number: it is no infinity and no NaN. -/
def isFiniteEncoding (x : Word) : Bool := expField x != 255

/-- `exp(+2 pi i * turn / 1024)` (41_synth.md R179). -/
noncomputable def phase (turn : Nat) : ℂ := Complex.exp (2 * Real.pi * Complex.I * turn / 1024)

/-- The exact complex value of a sum of terms (41_synth.md R179). -/
noncomputable def exactComplex (v : ExactValue) : ℂ :=
  (v.map fun t => (t.level : ℂ) * ((binary32Value t.weight : ℚ) : ℂ) * phase t.turn).sum / (Real.sqrt 384 : ℂ)

end Sys2Proof.Machine
end

