-- ==== Sys2Proof/Safety.lean ====
section
/-! DEFINITION. What counts as a legal state of the CORE, in the terms statements use: the ranges and relations that
10_state.md gives its registers, which every step keeps; and what becomes of the buffers of work commands. -/

namespace Sys2Proof.Machine

open Sys2Proof

/-- The fault fields of a status register agree: FAULTCODE is 0 without a fault and a code of 60_exceptions.md R230 with
one (10_state.md R32). -/
def StatusFaultsAgree (status : Word) : Prop :=
  (isFaulted status = false → faultCodeField status = 0) ∧
  (isFaulted status = true → 1 ≤ (faultCodeField status).toNat ∧ (faultCodeField status).toNat ≤ 10)

/-- A legal state of unit FR (10_state.md R21 to R32). -/
structure FrUnit.Legal (u : FrUnit) : Prop where
  /-- the reserved bits of FR_STATUS read 0 (R32) -/
  statusReserved : u.status &&& 0xFFFF00F8 = 0
  /-- the fault fields agree (R32) -/
  faults : StatusFaultsAgree u.status
  /-- the reserved bits of FR_CFG read 0 (R21) -/
  cfgReserved : u.cfg &&& frCfgReserved = 0
  /-- FR_COUNT is a position in a packet (R26) -/
  countRange : u.count.toNat < packetSize
  /-- FR_CRC is never written in high-efficiency mode (R27) -/
  hemCrc : frHem u.cfg = true → u.crc = 0
  /-- FR_FECBLOCK is frozen at 0 without in-band signalling (R28) -/
  fecFrozen : frInband u.cfg = false → u.fecBlock = 0
  /-- SYNCERR is sticky: a counted error has set it (R30, R32) -/
  syncSticky : isSyncErr u.status = false → u.syncErr = 0
  /-- a configured unit holds a legal configuration (R22, R23, R24, R28) -/
  configured : isConfigured u.status = true →
    u.kbch = BitVec.ofNat 32 (kbchTable (frShort u.cfg) (frRate u.cfg)) ∧ u.tsRate.toNat < 2 ^ 27 ∧
      (frInband u.cfg = true → u.fecBlock.toNat < u.fecBlocks.toNat)
  /-- an unconfigured unit holds reset values in every register but its status (40_framer.md R120, 60_exceptions.md R231) -/
  unconfigured : isConfigured u.status = false →
    u = { FrUnit.reset with status := u.status } ∧ isSyncErr u.status = false

/-- A legal state of unit SY (10_state.md R35 to R45). -/
structure SyUnit.Legal (u : SyUnit) : Prop where
  /-- bit 2 and the other reserved bits of SY_STATUS read 0 (R45) -/
  statusReserved : u.status &&& 0xFFFF00FC = 0
  /-- the fault fields agree (R45) -/
  faults : StatusFaultsAgree u.status
  /-- the reserved bits of SY_CFG read 0 (R35) -/
  cfgReserved : u.cfg &&& syCfgReserved = 0
  /-- SY_WIN, P1_A and P1_SH have 1024 entries (R42, R43) -/
  winLength : u.win.length = 1024
  p1ALength : u.p1A.length = 1024
  p1ShLength : u.p1Sh.length = 1024
  /-- a configured unit holds the registers and tables of a legal configuration (R36 to R43; 41_synth.md R170 to R172) -/
  configured : isConfigured u.status = true →
    syFft u.cfg ≠ 7 ∧ syGi u.cfg ≠ 7 ∧ u.win.any nonFinite = false ∧ insertionItemsOf u.cfg u.nData < 2 ^ 32 ∧
      u = { syConfigured u.cfg u.nData u.win SyUnit.reset with status := u.status }
  /-- an unconfigured unit holds reset values in every register and table but its status (41_synth.md R170) -/
  unconfigured : isConfigured u.status = false → u = { SyUnit.reset with status := u.status }

/-- An event the CORE can have made: a synchronization error reports a byte that is not the sync byte (40_framer.md
R133), a fault names the unit its opcode names (60_exceptions.md R231). -/
def Event.Legal : Event → Prop
  | .syncError _ value => value ≠ syncByte
  | .fault unit _ opcode => unit = (opcodeOf opcode).bind opcodeUnit

/-- A legal state of the CORE. -/
structure State.Legal (s : State) : Prop where
  fr : s.fr.Legal
  sy : s.sy.Legal
  log : ∀ e ∈ s.log, e.Legal

/-- No buffer is taken, handed back or changed, and no free value drawn, from s to t. -/
structure BuffersUntouched (s t : State) : Prop where
  frBufs : t.frBufs = s.frBufs
  frReturned : t.frReturned = s.frReturned
  syBufs : t.syBufs = s.syBufs
  syReturned : t.syReturned = s.syReturned
  draws : t.draws = s.draws

/-- From s to t the buffers handed over with FR_WORK, and no others, go back to the host, the output buffer holding `out`
and all else of the pair unchanged (20_memory.md R60 and R73). -/
structure FrHandedBack (s t : State) (out : List Byte) : Prop where
  length : out.length = (handedFr s).output.length
  frBufs : t.frBufs = s.frBufs.tail
  frReturned : t.frReturned = s.frReturned ++ [{ handedFr s with output := out }]
  syBufs : t.syBufs = s.syBufs
  syReturned : t.syReturned = s.syReturned
  draws : t.draws = s.draws + 1

/-- From s to t the buffers handed over with SY_WORK, and no others, go back to the host, the output buffer holding `out`
and all else of the pair unchanged (20_memory.md R60 and R73). -/
structure SyHandedBack (s t : State) (out : List Sample) : Prop where
  length : out.length = (handedSy s).output.length
  syBufs : t.syBufs = s.syBufs.tail
  syReturned : t.syReturned = s.syReturned ++ [{ handedSy s with output := out }]
  frBufs : t.frBufs = s.frBufs
  frReturned : t.frReturned = s.frReturned
  draws : t.draws = s.draws + 1

/-- Unit FR or SY accepts forecast and work commands: it is READY (10_state.md R32). -/
def Ready (status : Word) : Prop := isConfigured status = true ∧ isFaulted status = false

/-- Unit FR or SY accepts its config command: it is UNCONFIGURED (10_state.md R32). -/
def Unconfigured (status : Word) : Prop := isConfigured status = false ∧ isFaulted status = false

end Sys2Proof.Machine
end

