-- ==== Sys2Proof/Certificates/Slice0/Obligations.lean ====
section
/-! DEFINITION. The statements for the provers. Each docstring names the rule of spec/ it comes from; a clause that is
the model's own choice says so and names the log entry. -/

open Sys2Proof Sys2Proof.Machine

/-! ## Encoding -/

/-- 30_encoding.md R80, R83 to R85: every command's words, followed by any others, decode to it with every operand at its
value, and the others are left at the port. -/
def Obligations.DecodeOfEncode : Prop :=
  ∀ (i : Instr) (rest : List Word), i.WellFormed → decode (encode i ++ rest) = .instr i rest

/-- 30_encoding.md R80, R83 to R86: words that decode to a command are exactly that command's words, and the command is
well-formed, so no two encodings stand for one command. -/
def Obligations.EncodeOfDecode : Prop :=
  ∀ (words : List Word) (i : Instr) (rest : List Word), decode words = .instr i rest →
    words = encode i ++ rest ∧ i.WellFormed

/-- 95_test_vectors.md: words of every family, written out there, decode to the commands they stand for. -/
def Obligations.DecodesSpecWords : Prop :=
  decode [0x00000000] = .instr .nop [] ∧
  decode [0x01000000, 0x00001001, 0x00000002, 0x02FAF080] = .instr (.frConfig 0x1001 2 50000000) [] ∧
  decode [0x02000000, 0x00007DD0] = .instr (.frForecast 32208) [] ∧
  decode [0x03000000, 0x00001B78] = .instr (.frWork 7032) [] ∧
  decode [0x04000000] = .instr .frReset [] ∧
  decode [0x12000000, 0x00005900] = .instr (.syForecast 22784) [] ∧
  decode [0x13000000, 0x0000B200] = .instr (.syWork 45568) [] ∧
  decode [0x14000000] = .instr .syReset [] ∧
  decode [0x20000005] = .instr (.rdreg 0x05) [] ∧
  decode [0x21030000] = .instr (.rdtab 3 0) [] ∧
  decode [0x05000000, 0x00000000] = .illegal 0x05 [0x00000000] ∧
  decode [0x20000100] = .reserved .rdreg []

/-- 30_encoding.md R80 and 70_reset_and_hazards.md R264: how many words a listed opcode takes depends on the opcode alone,
whatever the immediate and the operands are; with fewer words at the port the CORE waits. -/
def Obligations.OpcodeGivesLength : Prop :=
  ∀ (w : Word) (ws : List Word) (op : Opcode), opcodeOf (opcField w) = some op →
    (ws.length < operandCount op → decode (w :: ws) = .wait) ∧
    (operandCount op ≤ ws.length →
      (∃ i, decode (w :: ws) = .instr i (ws.drop (operandCount op)) ∧ i.opcode = op) ∨
        decode (w :: ws) = .reserved op (ws.drop (operandCount op)))

/-- 20_memory.md R66: a word is laid out as four bytes, the least significant at the lowest address; a sample as its real
part's bytes and then its imaginary part's; and words and samples so laid out are read back. -/
def Obligations.ByteLayoutRoundTrip : Prop :=
  (∀ w : Word, ∃ b0 b1 b2 b3 : Byte, wordBytes w = [b0, b1, b2, b3] ∧
    w.toNat = b0.toNat + 2 ^ 8 * b1.toNat + 2 ^ 16 * b2.toNat + 2 ^ 24 * b3.toNat) ∧
  (∀ z : Sample, (sampleBytes z).length = 8 ∧ (sampleBytes z).take 4 = wordBytes z.re ∧
    (sampleBytes z).drop 4 = wordBytes z.im) ∧
  (∀ ws : List Word, wordsOfBytes (ws.flatMap wordBytes) = ws) ∧
  (∀ zs : List Sample, wordsOfBytes (zs.flatMap sampleBytes) = zs.flatMap fun z => [z.re, z.im])

/-- 30_encoding.md R87, 10_state.md R21 and R35: the packed words the assembler builds have no reserved bit and hold the
codes of their enumerated operands in the fields; the codes are those of R21, R35 and, for the tables of RDTAB, R46. The
list of code rates and the FFT codes are the spec's general knowledge (log entry 12). -/
def Obligations.AssembledConfigFields : Prop :=
  [CodeRate.r12, .r35, .r23, .r34, .r45, .r56, .r13, .r25].map codeRateCode = [0, 1, 2, 3, 4, 5, 6, 7] ∧
  [FftClass.k2, .k8, .k4, .k1, .k16, .k32, .k8T2gi].map fftCode = [0, 1, 2, 3, 4, 5, 6] ∧
  [GuardFraction.g1of32, .g1of16, .g1of8, .g1of4, .g1of128, .g19of128, .g19of256].map giCode = [0, 1, 2, 3, 4, 5, 6] ∧
  [TableName.crc8, .p1a, .p1sh, .win].map tableId = [0, 1, 2, 3] ∧
  (∀ size rate mode inband, let w := frCfgWord size rate mode inband
    w &&& frCfgReserved = 0 ∧ frShort w = (size == .short) ∧ frRate w = codeRateCode rate ∧
      frHem w = (mode == .hem) ∧ frInband w = (inband == .typeb)) ∧
  (∀ mode fft gi, let w := syCfgWord mode fft gi
    w &&& syCfgReserved = 0 ∧ syExtended w = (mode == .extended) ∧ syFft w = fftCode fft ∧ syGi w = giCode gi)

/-! ## Steps, faults and reset -/

/-- 20_memory.md R71 and 70_reset_and_hazards.md R264: when the words at the port decode to a command and no power-on
reset arrives, the step is that command's meaning on the state with its words taken; the command is well-formed. -/
def Obligations.StepRunsDecodedCommand : Prop :=
  ∀ (s : State) (i : Instr) (rest : List Word), s.resetPin = false → decode s.port = .instr i rest →
    step s = exec i { s with port := rest } ∧ i.WellFormed

/-- 70_reset_and_hazards.md R264: a command whose words have not all arrived is not started; the CORE takes no step. -/
def Obligations.StepWaitsForWords : Prop :=
  ∀ s : State, s.resetPin = false → (step s = .fault .awaitingWords ↔
    s.port = [] ∨ ∃ w ws op, s.port = w :: ws ∧ opcodeOf (opcField w) = some op ∧ ws.length < operandCount op)

/-- 30_encoding.md R86 and 60_exceptions.md R231: opcodes 0x05 to 0x10, 0x15 to 0x1F and 0x22 to 0xFF are reserved, and no
other; a reserved opcode takes one word, logs a fault that names no unit, answers Fault(ILLEGAL_OPCODE), and changes
nothing else. -/
def Obligations.IllegalOpcodeFaults : Prop :=
  (∀ b : Byte, opcodeOf b = none ↔
    (0x05 ≤ b.toNat ∧ b.toNat ≤ 0x10) ∨ (0x15 ≤ b.toNat ∧ b.toNat ≤ 0x1F) ∨ 0x22 ≤ b.toNat) ∧
  (∀ (s : State) (w : Word) (ws : List Word), s.resetPin = false → s.port = w :: ws → opcodeOf (opcField w) = none →
    step s = .next { s with
      port := ws
      log := s.log ++ [.fault none .illegalOpcode (opcField w)]
      responses := s.responses ++ [.fault .illegalOpcode] })

/-- 30_encoding.md R84 and R86, 60_exceptions.md R231: a nonzero must-be-zero bit of IMM24 takes the command's words,
records RESERVED_BITS for the unit the opcode names and for no other, and answers Fault(RESERVED_BITS). A work command's
buffers are handed back with their input and capacity, another command touches none (log entry 11). -/
def Obligations.ReservedBitsFault : Prop :=
  ∀ (s : State) (w : Word) (ws : List Word) (op : Opcode), s.resetPin = false → s.port = w :: ws →
    opcodeOf (opcField w) = some op → operandCount op ≤ ws.length → imm24Field w &&& mustBeZero op ≠ 0 →
    ∃ t, step s = .next t ∧ t.port = ws.drop (operandCount op) ∧
      t.log = s.log ++ [.fault (opcodeUnit op) .reservedBits (opcodeByte op)] ∧
      t.responses = s.responses ++ [.fault .reservedBits] ∧
      t.fr = (if opcodeUnit op = some .fr then { s.fr with status := recordFault .reservedBits s.fr.status } else s.fr) ∧
      t.sy = (if opcodeUnit op = some .sy then { s.sy with status := recordFault .reservedBits s.sy.status } else s.sy) ∧
      t.resetPin = false ∧
      (op ≠ .frWork → op ≠ .syWork → BuffersUntouched s t) ∧
      (op = .frWork → ∃ out, FrHandedBack s t out) ∧ (op = .syWork → ∃ out, SyHandedBack s t out)

/-- 30_encoding.md R81, 60_exceptions.md R230 to R233: every command answers a next state, with exactly one response, and
takes no word of the next command. -/
def Obligations.EveryCommandResponds : Prop :=
  ∀ (i : Instr) (s : State), ∃ t r, exec i s = .next t ∧ t.responses = s.responses ++ [r] ∧ t.port = s.port ∧
    t.resetPin = s.resetPin

/-- 60_exceptions.md R230 and R231 and 20_memory.md R69: the fault codes have the numbers 0x01 to 0x0A of R230; a command
that faults logs the fault with the unit its opcode names, sets that unit's FAULTED, and sets its FAULTCODE if it was not
FAULTED before; every other bit, register, table and unit is unchanged, no buffer is touched but a work command's own, and
that one keeps its input and its capacity. -/
def Obligations.FaultChangesOnlyTheRecord : Prop :=
  [FaultCode.illegalOpcode, .reservedBits, .badOperand, .configError, .alreadyConfigured, .unconfigured, .unitFaulted,
    .badSize, .outputOverflow, .inputUnderrun].map faultCodeByte =
      [0x01, 0x02, 0x03, 0x04, 0x05, 0x06, 0x07, 0x08, 0x09, 0x0A] ∧
  ∀ (i : Instr) (s t : State) (c : FaultCode), exec i s = .next t → t.responses = s.responses ++ [.fault c] →
    t.log = s.log ++ [.fault (opcodeUnit i.opcode) c (opcodeByte i.opcode)] ∧
    t.fr = { s.fr with status := t.fr.status } ∧ t.sy = { s.sy with status := t.sy.status } ∧
    (opcodeUnit i.opcode ≠ some .fr → t.fr.status = s.fr.status) ∧
    (opcodeUnit i.opcode ≠ some .sy → t.sy.status = s.sy.status) ∧
    (opcodeUnit i.opcode = some .fr → isFaulted t.fr.status = true ∧
      faultCodeField t.fr.status = (if isFaulted s.fr.status then faultCodeField s.fr.status else faultCodeByte c) ∧
      t.fr.status &&& 0xFFFF00FD = s.fr.status &&& 0xFFFF00FD) ∧
    (opcodeUnit i.opcode = some .sy → isFaulted t.sy.status = true ∧
      faultCodeField t.sy.status = (if isFaulted s.sy.status then faultCodeField s.sy.status else faultCodeByte c) ∧
      t.sy.status &&& 0xFFFF00FD = s.sy.status &&& 0xFFFF00FD) ∧
    (i.opcode ≠ .frWork → i.opcode ≠ .syWork → BuffersUntouched s t) ∧
    (i.opcode = .frWork → ∃ out, FrHandedBack s t out) ∧ (i.opcode = .syWork → ∃ out, SyHandedBack s t out)

/-- 60_exceptions.md R231 and R232: nothing but its reset command takes a unit out of FAULTED, and the first FAULTCODE
stays. -/
def Obligations.FaultedUntilUnitReset : Prop :=
  ∀ (i : Instr) (s t : State), exec i s = .next t →
    (i ≠ .frReset → isFaulted s.fr.status = true →
      isFaulted t.fr.status = true ∧ faultCodeField t.fr.status = faultCodeField s.fr.status) ∧
    (i ≠ .syReset → isFaulted s.sy.status = true →
      isFaulted t.sy.status = true ∧ faultCodeField t.sy.status = faultCodeField s.sy.status)

/-- 10_state.md R31: no command removes or changes an entry of the diagnostic log, and every entry a step adds is one the
CORE can make (40_framer.md R133, 60_exceptions.md R231). -/
def Obligations.LogOnlyGrows : Prop :=
  ∀ s t : State, s.resetPin = false → step s = .next t →
    ∃ es, t.log = s.log ++ es ∧ ∀ e ∈ es, e.Legal

/-- 00_scope.md R2 and 20_memory.md R72: an FR command neither changes unit SY nor depends on it, and an SY command
neither changes unit FR nor depends on it. -/
def Obligations.UnitsAreIsolated : Prop :=
  ∀ (i : Instr) (s t : State), exec i s = .next t →
    (opcodeUnit i.opcode = some .fr → t.sy = s.sy ∧ t.syBufs = s.syBufs ∧ t.syReturned = s.syReturned ∧
      ∀ sy', exec i { s with sy := sy' } = .next { t with sy := sy' }) ∧
    (opcodeUnit i.opcode = some .sy → t.fr = s.fr ∧ t.frBufs = s.frBufs ∧ t.frReturned = s.frReturned ∧
      ∀ fr', exec i { s with fr := fr' } = .next { t with fr := fr' })

/-- 20_memory.md R74, 10_state.md R34 and 42_control.md R210 and R211: FR's configuration registers change only by
FR_CONFIG and FR_RESET, SY's registers but its status and its tables only by SY_CONFIG and SY_RESET, and FR's counters
only by FR_CONFIG, FR_WORK and FR_RESET. -/
def Obligations.ConfigurationIsImmutable : Prop :=
  ∀ (i : Instr) (s t : State), exec i s = .next t →
    (i.opcode ≠ .frConfig → i.opcode ≠ .frReset → t.fr.cfg = s.fr.cfg ∧ t.fr.fecBlocks = s.fr.fecBlocks ∧
      t.fr.tsRate = s.fr.tsRate ∧ t.fr.kbch = s.fr.kbch ∧ isConfigured t.fr.status = isConfigured s.fr.status) ∧
    (i.opcode ≠ .frConfig → i.opcode ≠ .frWork → i.opcode ≠ .frReset →
      t.fr = { s.fr with status := t.fr.status } ∧ isSyncErr t.fr.status = isSyncErr s.fr.status) ∧
    (i.opcode ≠ .syConfig → i.opcode ≠ .syReset → t.sy = { s.sy with status := t.sy.status } ∧
      isConfigured t.sy.status = isConfigured s.sy.status)

/-- 70_reset_and_hazards.md R260: the state after power-on reset; that no command is in progress reads here as a port
without words (log entry 1). -/
def Obligations.ResetValues : Prop :=
  State.reset.fr.status = 0 ∧ State.reset.fr.cfg = 0 ∧ State.reset.fr.fecBlocks = 0 ∧ State.reset.fr.tsRate = 0 ∧
  State.reset.fr.kbch = 0 ∧ State.reset.fr.count = 0 ∧ State.reset.fr.crc = 0 ∧ State.reset.fr.fecBlock = 0 ∧
  State.reset.fr.inPos = 0 ∧ State.reset.fr.syncErr = 0 ∧
  State.reset.sy.status = 0 ∧ State.reset.sy.cfg = 0 ∧ State.reset.sy.nData = 0 ∧ State.reset.sy.fftSize = 0 ∧
  State.reset.sy.np2 = 0 ∧ State.reset.sy.cps = 0 ∧ State.reset.sy.gi = 0 ∧ State.reset.sy.frameItems = 0 ∧
  State.reset.sy.insertionItems = 0 ∧ State.reset.sy.scale = 0 ∧
  State.reset.sy.win.length = 1024 ∧ (∀ x ∈ State.reset.sy.win, x = 0) ∧
  State.reset.sy.p1A.length = 1024 ∧ (∀ z ∈ State.reset.sy.p1A, z = ⟨0, 0⟩) ∧
  State.reset.sy.p1Sh.length = 1024 ∧ (∀ z ∈ State.reset.sy.p1Sh, z = ⟨0, 0⟩) ∧
  State.reset.log = [] ∧ readReg State.reset 0x20 = some 0 ∧ State.reset.port = [] ∧
  ∀ i : Byte, readTab State.reset 0 (i.zeroExtend 16) = some [(crc8Entry i).zeroExtend 32]

/-- 70_reset_and_hazards.md R260 and R262: a power-on reset gives both units and the log their reset values and no
response. A command at the port is abandoned: its words are taken, and the output elements of a work command are unchanged
but for those it had written, the first ones up to what it emits (none if it would have faulted), and those the host wrote.
That the command at the port is the one that was executing, and what becomes of the port's words and of the buffers, is
the model's choice (log entry 6). -/
def Obligations.PowerOnResetAbandonsCommand : Prop :=
  ∀ s : State, s.resetPin = true → ∃ t, step s = .next t ∧ t.fr = State.reset.fr ∧ t.sy = State.reset.sy ∧ t.log = [] ∧
    t.responses = s.responses ∧ t.resetPin = false ∧
    (decode s.port = .wait → t.port = [] ∧ BuffersUntouched s t) ∧
    (∀ opc rest, decode s.port = .illegal opc rest → t.port = rest ∧ BuffersUntouched s t) ∧
    (∀ op rest, decode s.port = .reserved op rest → t.port = rest ∧
      (op ≠ .frWork → op ≠ .syWork → BuffersUntouched s t) ∧
      (op = .frWork → ∃ out, FrHandedBack s t out ∧
        ∀ j, j ∉ (handedFr s).hostWrites → out[j]? = (handedFr s).output[j]?) ∧
      (op = .syWork → ∃ out, SyHandedBack s t out ∧
        ∀ j, j ∉ (handedSy s).hostWrites → out[j]? = (handedSy s).output[j]?)) ∧
    (∀ i rest, decode s.port = .instr i rest → t.port = rest ∧
      (i.opcode ≠ .frWork → i.opcode ≠ .syWork → BuffersUntouched s t) ∧
      (∀ n, i = .frWork n → ∃ out written, FrHandedBack s t out ∧ written ≤ n.toNat ∧
        (∀ c, exec i s = .next (faultCommand .frWork c s) → written = 0) ∧
        ∀ j, written ≤ j → j ∉ (handedFr s).hostWrites → out[j]? = (handedFr s).output[j]?) ∧
      (∀ n, i = .syWork n → ∃ out written, SyHandedBack s t out ∧ written ≤ n.toNat ∧
        (∀ c, exec i s = .next (faultCommand .syWork c s) → written = 0) ∧
        ∀ j, written ≤ j → j ∉ (handedSy s).hostWrites → out[j]? = (handedSy s).output[j]?))

/-- 70_reset_and_hazards.md R260 with 10_state.md R21 to R45: the state after power-on reset is legal. -/
def Obligations.LegalAtReset : Prop := State.reset.Legal

/-- 10_state.md R21 to R45: every step keeps the ranges of the counters, the reserved bits, the lifecycle states, the
relation of the derived registers to the configuration, and the legality of the log. -/
def Obligations.StepKeepsLegal : Prop :=
  ∀ s t : State, s.Legal → step s = .next t → t.Legal

/-! ## Control commands -/

/-- 42_control.md R214: NOP changes nothing and responds Ok(); with a nonzero IMM24 it faults RESERVED_BITS and affects no
unit. -/
def Obligations.NopChangesNothing : Prop :=
  (∀ s : State, exec .nop s = .next { s with responses := s.responses ++ [.ok []] }) ∧
  (∀ (s : State) (imm : BitVec 24) (rest : List Word), s.resetPin = false → s.port = commandWord .nop imm :: rest →
    imm ≠ 0 → step s = .next { s with
      port := rest
      log := s.log ++ [.fault none .reservedBits 0x00]
      responses := s.responses ++ [.fault .reservedBits] }) ∧
  (∀ (s : State) (rest : List Word), s.resetPin = false → s.port = 0x00000000 :: rest →
    step s = .next { s with port := rest, responses := s.responses ++ [.ok []] })

/-- 42_control.md R210 and 10_state.md R46: RDREG takes the register number from IMM24 7:0, answers the register's value
in every lifecycle state, and changes nothing else; a reserved number faults BAD_OPERAND and a nonzero bit of IMM24 23:8
faults RESERVED_BITS, attributed to no unit. -/
def Obligations.RdregReadsRegister : Prop :=
  (∀ (s : State) (high : BitVec 16) (reg : Byte) (rest : List Word), s.resetPin = false →
    s.port = commandWord .rdreg (high ++ reg) :: rest →
    step s = if high = 0 then exec (.rdreg reg) { s with port := rest } else .next { s with
      port := rest
      log := s.log ++ [.fault none .reservedBits 0x20]
      responses := s.responses ++ [.fault .reservedBits] }) ∧
  (∀ (s : State) (reg : Byte) (v : Word),
    (reg, v) ∈ ([(0x00, s.fr.status), (0x01, s.fr.cfg), (0x02, s.fr.fecBlocks), (0x03, s.fr.tsRate), (0x04, s.fr.kbch),
      (0x05, s.fr.count.zeroExtend 32), (0x06, s.fr.crc.zeroExtend 32), (0x07, s.fr.fecBlock), (0x08, s.fr.syncErr),
      (0x09, s.fr.inPos.truncate 32), (0x0A, (s.fr.inPos >>> 32).truncate 32), (0x10, s.sy.status), (0x11, s.sy.cfg),
      (0x12, s.sy.nData), (0x13, s.sy.fftSize), (0x14, s.sy.np2), (0x15, s.sy.cps), (0x16, s.sy.gi),
      (0x17, s.sy.frameItems), (0x18, s.sy.insertionItems), (0x19, s.sy.scale),
      (0x20, if s.log.length < 2 ^ 32 then BitVec.ofNat 32 s.log.length else 0xFFFFFFFF)] : List (Byte × Word)) →
    exec (.rdreg reg) s = .next { s with responses := s.responses ++ [.ok [v]] }) ∧
  (∀ (s : State) (reg : Byte), (0x0A < reg.toNat ∧ reg.toNat < 0x10) ∨ (0x19 < reg.toNat ∧ reg.toNat ≠ 0x20) →
    exec (.rdreg reg) s = .next { s with
      log := s.log ++ [.fault none .badOperand 0x20]
      responses := s.responses ++ [.fault .badOperand] })

/-- 42_control.md R211: RDTAB takes the table id from IMM24 23:16 and the index from IMM24 15:0, answers the entry, one
word for tables 0 and 3 and two for the complex tables 1 and 2, and changes nothing else; a reserved table id or an index
out of the table's range faults BAD_OPERAND, attributed to no unit. -/
def Obligations.RdtabReadsEntry : Prop :=
  (∀ (s : State) (tab : Byte) (idx : BitVec 16) (rest : List Word), s.resetPin = false →
    s.port = commandWord .rdtab (tab ++ idx) :: rest →
    step s = exec (.rdtab tab idx) { s with port := rest }) ∧
  (∀ (s : State) (idx : BitVec 16) (z : Sample) (x : Word),
    (idx.toNat ≤ 255 → exec (.rdtab 0 idx) s = .next { s with
      responses := s.responses ++ [.ok [(crc8Entry (idx.truncate 8)).zeroExtend 32]] }) ∧
    (idx.toNat ≤ 1023 → s.sy.p1A[idx.toNat]? = some z →
      exec (.rdtab 1 idx) s = .next { s with responses := s.responses ++ [.ok [z.re, z.im]] }) ∧
    (idx.toNat ≤ 1023 → s.sy.p1Sh[idx.toNat]? = some z →
      exec (.rdtab 2 idx) s = .next { s with responses := s.responses ++ [.ok [z.re, z.im]] }) ∧
    (idx.toNat ≤ 1023 → s.sy.win[idx.toNat]? = some x →
      exec (.rdtab 3 idx) s = .next { s with responses := s.responses ++ [.ok [x]] })) ∧
  (∀ (s : State) (tab : Byte) (idx : BitVec 16),
    (tab = 0 ∧ 255 < idx.toNat) ∨ (1 ≤ tab.toNat ∧ tab.toNat ≤ 3 ∧ 1023 < idx.toNat) ∨ 3 < tab.toNat →
    exec (.rdtab tab idx) s = .next { s with
      log := s.log ++ [.fault none .badOperand 0x21]
      responses := s.responses ++ [.fault .badOperand] })

/-- 42_control.md R212 and 70_reset_and_hazards.md R261: FR_RESET gives every FR register its reset value in every
lifecycle state, and leaves unit SY and the log; after it FR_STATUS reads 0. A nonzero IMM24 faults RESERVED_BITS. -/
def Obligations.FrResetRestoresReset : Prop :=
  (∀ (s : State) (imm : BitVec 24) (rest : List Word), s.resetPin = false → s.port = commandWord .frReset imm :: rest →
    step s = if imm = 0 then exec .frReset { s with port := rest }
      else .next (faultCommand .frReset .reservedBits { s with port := rest })) ∧
  ∀ s : State, exec .frReset s = .next { s with
    fr := { status := 0, cfg := 0, fecBlocks := 0, tsRate := 0, kbch := 0, count := 0, crc := 0, fecBlock := 0,
            inPos := 0, syncErr := 0 }
    responses := s.responses ++ [.ok []] }

/-- 42_control.md R213 and 70_reset_and_hazards.md R261: SY_RESET gives every SY register and table its reset value in
every lifecycle state, and leaves unit FR and the log. A nonzero IMM24 faults RESERVED_BITS. -/
def Obligations.SyResetRestoresReset : Prop :=
  (∀ (s : State) (imm : BitVec 24) (rest : List Word), s.resetPin = false → s.port = commandWord .syReset imm :: rest →
    step s = if imm = 0 then exec .syReset { s with port := rest }
      else .next (faultCommand .syReset .reservedBits { s with port := rest })) ∧
  ∀ s : State, exec .syReset s = .next { s with
    sy := { status := 0, cfg := 0, nData := 0, fftSize := 0, np2 := 0, cps := 0, gi := 0, frameItems := 0,
            insertionItems := 0, scale := 0, win := List.replicate 1024 0, p1A := List.replicate 1024 ⟨0, 0⟩,
            p1Sh := List.replicate 1024 ⟨0, 0⟩ }
    responses := s.responses ++ [.ok []] }

/-! ## Framer: configuration and forecast -/

/-- 40_framer.md R120: FR_CONFIG with legal operands on an UNCONFIGURED unit writes the configuration, kbch and the
counters, sets CONFIGURED, answers kbch, and changes nothing else. -/
def Obligations.FrConfigConfigures : Prop :=
  ∀ (w1 w2 w3 : Word) (s : State), Unconfigured s.fr.status → w1 &&& 0xFFFFEE8E = 0 →
    (w1.getLsbD 12 = true → w2 ≠ 0) → w3.toNat < 2 ^ 27 →
    exec (.frConfig w1 w2 w3) s = .next { s with
      fr := { s.fr with
              status := s.fr.status ||| 1, cfg := w1, fecBlocks := w2, tsRate := w3,
              kbch := BitVec.ofNat 32 (kbchTable (w1.getLsbD 0) (w1.extractLsb' 4 3)),
              count := 0, crc := 0, fecBlock := 0 }
      responses := s.responses ++ [.ok [BitVec.ofNat 32 (kbchTable (w1.getLsbD 0) (w1.extractLsb' 4 3))]] }

/-- 40_framer.md R120 and 60_exceptions.md R233: which fault FR_CONFIG ends with, the checks in their order. -/
def Obligations.FrConfigFaultOrder : Prop :=
  ∀ (w1 w2 w3 : Word) (s : State),
    (isFaulted s.fr.status = true → exec (.frConfig w1 w2 w3) s = .next (faultCommand .frConfig .unitFaulted s)) ∧
    (Ready s.fr.status → exec (.frConfig w1 w2 w3) s = .next (faultCommand .frConfig .alreadyConfigured s)) ∧
    (Unconfigured s.fr.status → w1 &&& 0xFFFFEE8E ≠ 0 →
      exec (.frConfig w1 w2 w3) s = .next (faultCommand .frConfig .badOperand s)) ∧
    (Unconfigured s.fr.status → w1 &&& 0xFFFFEE8E = 0 → (w1.getLsbD 12 = true ∧ w2 = 0) ∨ 2 ^ 27 ≤ w3.toNat →
      exec (.frConfig w1 w2 w3) s = .next (faultCommand .frConfig .configError s))

/-- 40_framer.md R122: FR_FORECAST takes N from its one operand word; on a READY unit it answers the declared input bytes
and changes nothing else; on a FAULTED or UNCONFIGURED unit it faults. -/
def Obligations.FrForecastAnswers : Prop :=
  (∀ (n : Word) (rest : List Word), decode (0x02000000 :: n :: rest) = .instr (.frForecast n) rest) ∧
  ∀ (n : Word) (s : State),
    (Ready s.fr.status → exec (.frForecast n) s = .next { s with
      responses := s.responses ++ [.ok [BitVec.ofNat 32 (if n.toNat = 0 then 0
        else (if n.toNat ≤ 80 then 0 else (n.toNat - 80 + 7) / 8) + (if s.fr.cfg.getLsbD 8 then 188 else 0))]] }) ∧
    (isFaulted s.fr.status = true → exec (.frForecast n) s = .next (faultCommand .frForecast .unitFaulted s)) ∧
    (Unconfigured s.fr.status → exec (.frForecast n) s = .next (faultCommand .frForecast .unconfigured s))

/-! ## Framer: work -/

/-- 40_framer.md R123, R124 and R136, 20_memory.md R61 to R63: FR_WORK on a READY unit with N a multiple of kbch, room for
N elements and the bytes it needs answers Ok(need(N), N), where need(N) fits its word (R142); the unit and the emitted bits
are those of the run of frames; each emitted element is 0 or 1; output elements from N on are unchanged (both but for
elements the host itself writes, 70_reset_and_hazards.md R265); only the synchronization reports of the run enter the log;
the rest of the state is unchanged. A run is its first frame and then the run of the others from the unit and the input
that frame left. -/
def Obligations.FrWorkPacksFrames : Prop :=
  (∀ (u : FrUnit) (input : List Byte), framesRun 0 u input = { unit := u, bits := [], events := [], rest := input }) ∧
  (∀ (k : Nat) (u : FrUnit) (input : List Byte), let first := frameRun u input
    let later := framesRun k first.unit first.rest
    framesRun (k + 1) u input = { unit := later.unit, bits := first.bits ++ later.bits,
                                  events := first.events ++ later.events, rest := later.rest }) ∧
  ∀ (n : Word) (s : State), s.fr.Legal → Ready s.fr.status → n.toNat % s.fr.kbch.toNat = 0 →
    n.toNat ≤ (handedFr s).output.length → need s.fr n.toNat ≤ (handedFr s).input.length →
    need s.fr n.toNat < 2 ^ 32 ∧
    ∃ run out, run = framesRun (n.toNat / s.fr.kbch.toNat) s.fr (handedFr s).input ∧
      exec (.frWork n) s = .next { s with
        fr := run.unit
        log := s.log ++ run.events
        frBufs := s.frBufs.tail
        frReturned := s.frReturned ++ [{ handedFr s with output := out }]
        responses := s.responses ++ [.ok [BitVec.ofNat 32 (need s.fr n.toNat), n]]
        draws := s.draws + 1 } ∧
      run.bits.length = n.toNat ∧ out.length = (handedFr s).output.length ∧
      ∀ j, j ∉ (handedFr s).hostWrites →
        out[j]? = if j < n.toNat then (run.bits[j]?).map (fun bit => if bit then 1 else 0) else (handedFr s).output[j]?

/-- 40_framer.md R124 to R126 and 60_exceptions.md R233: which fault FR_WORK ends with, the checks in their order. -/
def Obligations.FrWorkFaultOrder : Prop :=
  ∀ (n : Word) (s : State),
    (isFaulted s.fr.status = true → exec (.frWork n) s = .next (faultCommand .frWork .unitFaulted s)) ∧
    (Unconfigured s.fr.status → exec (.frWork n) s = .next (faultCommand .frWork .unconfigured s)) ∧
    (Ready s.fr.status → n.toNat % s.fr.kbch.toNat ≠ 0 →
      exec (.frWork n) s = .next (faultCommand .frWork .badSize s)) ∧
    (Ready s.fr.status → n.toNat % s.fr.kbch.toNat = 0 → (handedFr s).output.length < n.toNat →
      exec (.frWork n) s = .next (faultCommand .frWork .outputOverflow s)) ∧
    (Ready s.fr.status → n.toNat % s.fr.kbch.toNat = 0 → n.toNat ≤ (handedFr s).output.length →
      (handedFr s).input.length < need s.fr n.toNat →
      exec (.frWork n) s = .next (faultCommand .frWork .inputUnderrun s))

/-- 40_framer.md R124 and 70_reset_and_hazards.md R266: the frames of one command come out exactly as if the host had
asked for them in two commands, the second's input starting at the first byte the first did not consume. -/
def Obligations.FrWorkSplitsIntoCommands : Prop :=
  ∀ (n₁ n₂ : Word) (s : State) (input out₁ out₂ : List Byte), s.fr.Legal → Ready s.fr.status →
    n₁.toNat + n₂.toNat < 2 ^ 32 → n₁.toNat % s.fr.kbch.toNat = 0 → n₂.toNat % s.fr.kbch.toNat = 0 →
    out₁.length = n₁.toNat → out₂.length = n₂.toNat → need s.fr (n₁.toNat + n₂.toNat) ≤ input.length →
    ∃ t t₁ t₂ res₁ res₂ later,
      exec (.frWork (n₁ + n₂)) { s with frBufs := [⟨input, out₁ ++ out₂, []⟩] } = .next t ∧
      exec (.frWork n₁) { s with frBufs := [⟨input, out₁, []⟩, ⟨input.drop (need s.fr n₁.toNat), out₂, []⟩] } = .next t₁ ∧
      exec (.frWork n₂) t₁ = .next t₂ ∧
      t₂.fr = t.fr ∧ t₂.log = t.log ∧
      t.frReturned = s.frReturned ++ [⟨input, res₁ ++ res₂, []⟩] ∧
      t₂.frReturned = s.frReturned ++ [⟨input, res₁, []⟩, ⟨input.drop (need s.fr n₁.toNat), res₂, []⟩] ∧
      t.responses = s.responses ++ [.ok [BitVec.ofNat 32 (need s.fr n₁.toNat + later), n₁ + n₂]] ∧
      t₂.responses = s.responses ++
        [.ok [BitVec.ofNat 32 (need s.fr n₁.toNat), n₁], .ok [BitVec.ofNat 32 later, n₂]]

/-- 20_memory.md R61: FR_WORK never reads an input element at index `consumed` or above, so what stands there changes
neither the unit, nor the log, nor the response, nor the output. -/
def Obligations.FrWorkIgnoresUnreadInput : Prop :=
  ∀ (n : Word) (s t : State) (taken rest rest' output : List Byte), s.fr.Legal → taken.length = need s.fr n.toNat →
    exec (.frWork n) { s with frBufs := [⟨taken ++ rest, output, []⟩] } = .next t →
    t.responses = s.responses ++ [.ok [BitVec.ofNat 32 (need s.fr n.toNat), n]] →
    ∃ out, t.frReturned = s.frReturned ++ [⟨taken ++ rest, out, []⟩] ∧
      exec (.frWork n) { s with frBufs := [⟨taken ++ rest', output, []⟩] } =
        .next { t with frReturned := s.frReturned ++ [⟨taken ++ rest', out, []⟩] }

/-- 40_framer.md R127 and R128, 30_encoding.md R88 and R89: the 80-bit header, field by field, at the positions of the
layout. The widths of the mode fields and their values are the spec's general knowledge (log entry 12). -/
def Obligations.HeaderLayout : Prop :=
  ∀ u : FrUnit, let h := frameHeader u
    let padding := if u.cfg.getLsbD 12 = true ∧ u.fecBlock = 0 then 104 else 0
    let syncd := if u.count = 0 then 0 else (188 - u.count.toNat) * 8
    h.length = 80 ∧
    h.take 8 = [true, true, true, true, false, false, false, false] ∧
    (h.drop 8).take 8 = List.replicate 8 false ∧
    (h.drop 16).take 16 = bitsMSB (0x05E0 : BitVec 16) ∧
    (h.drop 32).take 16 = bitsMSB (BitVec.ofNat 16 (u.kbch.toNat - 80 - padding)) ∧
    (h.drop 48).take 8 = bitsMSB (0x47 : BitVec 8) ∧
    (h.drop 56).take 16 = bitsMSB (BitVec.ofNat 16 syncd) ∧
    h.drop 72 = bitsLSB (headerCrcRegister (h.take 72) ^^^ (if u.cfg.getLsbD 8 then 0x80 else 0x00))

/-- 30_encoding.md R88 and R91, 40_framer.md R131 to R136: a frame of a legal READY unit with enough input is exactly
kbch bits: the header, the payload bytes MSB-first, and the in-band field exactly if padding is 104; its layout is that
of R90. The frame reports what the payload reports, leaves the input the payload leaves, and leaves the unit as the payload
leaves it but for the FEC-block counter. -/
def Obligations.FrameLayout : Prop :=
  ∀ (u : FrUnit) (input : List Byte), u.Legal → Ready u.status → need u u.kbch.toNat ≤ input.length →
    let f := frameRun u input
    let padding := if u.cfg.getLsbD 12 = true ∧ u.fecBlock = 0 then 104 else 0
    let dfl := u.kbch.toNat - 80 - padding
    let body := payloadRun u (dfl / 8) input
    let payload := body.bytes
    f.unit = { body.unit with
      fecBlock := if u.cfg.getLsbD 12 then BitVec.ofNat 32 ((u.fecBlock.toNat + 1) % u.fecBlocks.toNat) else u.fecBlock } ∧
    f.events = body.events ∧ f.rest = body.rest ∧
    f.bits.length = u.kbch.toNat ∧ f.bits.take 80 = frameHeader u ∧ payload.length = dfl / 8 ∧
    (f.bits.drop 80).take dfl = payload.flatMap (fun v => bitsMSB v) ∧
    f.bits.drop (80 + dfl) = if padding = 104 then
      [false, true] ++ List.replicate 31 false ++ List.replicate 22 false ++ List.replicate 2 false
        ++ List.replicate 10 false ++ bitsMSB (u.tsRate.truncate 27) ++ List.replicate 10 false else []

/-- 40_framer.md R142 and R130: in every legal READY unit DFL is a multiple of 8 from 5048 to 53760, header, payload and
padding make up kbch, and SYNCD is 0 or a multiple of 8 in 8 to 1496. -/
def Obligations.HeaderFieldsFit : Prop :=
  ∀ u : FrUnit, u.Legal → Ready u.status →
    5048 ≤ frameDfl u ∧ frameDfl u ≤ 53760 ∧ frameDfl u % 8 = 0 ∧ frameSlots u * 8 = frameDfl u ∧
    80 + frameDfl u + framePadding u = u.kbch.toNat ∧
    (frameSyncd u = 0 ↔ u.count = 0) ∧ frameSyncd u % 8 = 0 ∧ frameSyncd u ≤ 1496

/-- 40_framer.md R132 and R133: one payload byte at a packet start and elsewhere, in both modes. -/
def Obligations.PayloadByteRule : Prop :=
  ∀ (u : FrUnit) (b : Byte), let st := payloadByte u b
    st.unit.inPos = u.inPos + 1 ∧ st.unit.count = BitVec.ofNat 8 ((u.count.toNat + 1) % 188) ∧
    st.unit = { u with inPos := st.unit.inPos, count := st.unit.count, crc := st.unit.crc,
                       syncErr := st.unit.syncErr, status := st.unit.status } ∧
    (u.count = 0 → b = 0x47 → st.events = [] ∧ st.unit.syncErr = u.syncErr ∧ st.unit.status = u.status) ∧
    (u.count = 0 → b ≠ 0x47 → st.events = [.syncError u.inPos b] ∧ st.unit.syncErr = u.syncErr + 1 ∧
      st.unit.status = u.status ||| 4) ∧
    (u.count = 0 → u.cfg.getLsbD 8 = false → st.emitted = some u.crc ∧ st.unit.crc = 0) ∧
    (u.count = 0 → u.cfg.getLsbD 8 = true → st.emitted = none ∧ st.unit.crc = u.crc) ∧
    (u.count ≠ 0 → st.events = [] ∧ st.emitted = some b ∧ st.unit.syncErr = u.syncErr ∧ st.unit.status = u.status) ∧
    (u.count ≠ 0 → u.cfg.getLsbD 8 = false → st.unit.crc = crc8Entry (b ^^^ u.crc)) ∧
    (u.count ≠ 0 → u.cfg.getLsbD 8 = true → st.unit.crc = u.crc)

/-- 40_framer.md R132 and R138: in normal mode payload byte k is input byte k unless the counter stands at 0 there; at a
packet start it is the running checksum, and for a packet all of whose bytes were taken in this run it is the CRC-8 of
its 187 bytes. -/
def Obligations.NormalModePayload : Prop :=
  ∀ (u : FrUnit) (slots : Nat) (input : List Byte), u.cfg.getLsbD 8 = false → u.count.toNat < 188 →
    slots ≤ input.length → let bytes := (payloadRun u slots input).bytes
    bytes.length = slots ∧ ∀ k, k < slots →
      ((u.count.toNat + k) % 188 ≠ 0 → bytes[k]? = input[k]?) ∧
      ((u.count.toNat + k) % 188 = 0 → k < 188 →
        bytes[k]? = some ((input.take k).foldl (fun c b => crc8Entry (b ^^^ c)) u.crc)) ∧
      ((u.count.toNat + k) % 188 = 0 → 188 ≤ k →
        bytes[k]? = some (((input.drop (k - 187)).take 187).foldl (fun c b => crc8Entry (b ^^^ c)) 0))

/-- 40_framer.md R132: in high-efficiency mode the payload is the consumed input with every byte at a packet start
dropped. -/
def Obligations.HighEfficiencyPayload : Prop :=
  ∀ (u : FrUnit) (slots : Nat) (input : List Byte), u.cfg.getLsbD 8 = true → u.count.toNat < 188 →
    (needSlots true slots u.count.toNat).1 ≤ input.length →
    (payloadRun u slots input).bytes.length = slots ∧
    (payloadRun u slots input).bytes =
      ((input.take (needSlots true slots u.count.toNat).1).zipIdx.filter
        fun p => (u.count.toNat + p.2) % 188 != 0).map fun p => p.1

/-- 40_framer.md R123, R133 and R140, 60_exceptions.md R234, 70_reset_and_hazards.md R267: filling slots takes exactly the
bytes `need` counts, the counter advances by one modulo 188 per byte taken and is never realigned, and a synchronization
error is reported at each byte taken with the counter at 0 that is not 0x47, with its position, and at no other. The unit
afterwards is that of the payload byte steps (R132) on the bytes taken, one after the other. -/
def Obligations.PayloadCountsAndReports : Prop :=
  ∀ (u : FrUnit) (slots : Nat) (input : List Byte), u.count.toNat < 188 →
    let taken := (needSlots (u.cfg.getLsbD 8) slots u.count.toNat).1
    taken ≤ input.length → let run := payloadRun u slots input
    run.unit = (input.take taken).foldl (fun v b => (payloadByte v b).unit) u ∧
    run.rest = input.drop taken ∧ run.unit.inPos = u.inPos + BitVec.ofNat 64 taken ∧
    run.unit.count.toNat = (u.count.toNat + taken) % 188 ∧
    run.events = ((input.take taken).zipIdx.filter
      fun p => (u.count.toNat + p.2) % 188 == 0 && p.1 != 0x47).map
        (fun p => Event.syncError (u.inPos + BitVec.ofNat 64 p.2) p.1) ∧
    run.unit.syncErr = u.syncErr + BitVec.ofNat 32 run.events.length ∧
    run.unit.status = (if run.events = [] then u.status else u.status ||| 4)

/-- 40_framer.md R127, R135 and R140: the FEC-block counter goes through 0 to fecBlockCount - 1, one per frame, and the
in-band field is in frame k of a run exactly if the counter is 0 there; the frames change no configuration register. -/
def Obligations.FecBlockCycles : Prop :=
  ∀ (u : FrUnit) (k : Nat) (input : List Byte), u.Legal → Ready u.status →
    let v := (framesRun k u input).unit
    v.cfg = u.cfg ∧ v.fecBlocks = u.fecBlocks ∧ v.tsRate = u.tsRate ∧ v.kbch = u.kbch ∧
    (u.cfg.getLsbD 12 = true → v.fecBlock.toNat = (u.fecBlock.toNat + k) % u.fecBlocks.toNat ∧
      (framePadding v = 104 ↔ (u.fecBlock.toNat + k) % u.fecBlocks.toNat = 0)) ∧
    (u.cfg.getLsbD 12 = false → v.fecBlock = 0 ∧ framePadding v = 0)

/-- 40_framer.md R123 and R141: in normal mode a slot takes one byte; in high-efficiency mode s slots from counter c take
s + z bytes, z the sync bytes dropped, which is the ceiling R141 gives. -/
def Obligations.BytesNeededPerFrame : Prop :=
  ∀ s c : Nat, c < 188 → (needSlots false s c).1 = s ∧
    let z := (needSlots true s c).1 - s
    let before := (188 - c) % 188
    s ≤ (needSlots true s c).1 ∧
    z = (if before < s + z then (s + z - before + 187) / 188 else 0) ∧
    (needSlots true s c).2 = (c + s + z) % 188 ∧ (needSlots false s c).2 = (c + s) % 188

/-- 70_reset_and_hazards.md R270: in normal mode the forecast for k frames exceeds the need by 10 bytes for every frame
after the first and 13 for every frame that carries the in-band field. -/
def Obligations.NormalModeForecastSurplus : Prop :=
  ∀ (u : FrUnit) (k : Nat), u.Legal → Ready u.status → u.cfg.getLsbD 8 = false → 1 ≤ k →
    frForecast false (k * u.kbch.toNat) = need u (k * u.kbch.toNat) + 10 * (k - 1) +
      13 * ((List.range k).filter fun j =>
        u.cfg.getLsbD 12 && (u.fecBlock.toNat + j) % u.fecBlocks.toNat == 0).length

/-- 70_reset_and_hazards.md R272: its table. From counter 0 without in-band field, the need of k frames exceeds the
forecast at the listed k with the listed values and at no smaller k; NORMAL 1/3 and every SHORT configuration stay within
the forecast for k up to 39. And one frame of a legal READY unit never needs more than its forecast, from any counter,
with or without the in-band field. -/
def Obligations.HighEfficiencyForecast : Prop :=
  (∀ u : FrUnit, u.Legal → Ready u.status → u.cfg.getLsbD 8 = true →
    need u u.kbch.toNat ≤ frForecast true u.kbch.toNat) ∧
  ∀ (u : FrUnit) (k : Nat), u.count = 0 → u.cfg.getLsbD 12 = false → u.cfg.getLsbD 8 = true →
    (∀ row ∈ [(32208, 16, 64600, 64594), (38688, 12, 58222, 58210), (43040, 10, 53988, 53978), (48408, 8, 48587, 48586),
        (51648, 8, 51844, 51826), (53840, 7, 47292, 47288), (25728, 25, 80579, 80578)], u.kbch.toNat = row.1 →
      need u (row.2.1 * row.1) = row.2.2.1 ∧ frForecast true (row.2.1 * row.1) = row.2.2.2 ∧
      (k < row.2.1 → need u (k * row.1) ≤ frForecast true (k * row.1))) ∧
    (u.kbch.toNat ∈ [21408, 7032, 9552, 10632, 11712, 12432, 13152, 5232, 6312] → k ≤ 39 →
      need u (k * u.kbch.toNat) ≤ frForecast true (k * u.kbch.toNat))

/-! ## The two checksums -/

/-- 40_framer.md R137: each entry of CRC8_TAB is the MSB-first CRC-8 of the single byte with generator 0xD5 and initial
value 0, and the listed entries are 0x00, 0xD5, 0x7F, 0xEF and 0xF9. The construction loop is the spec's general
knowledge (log entry 12). -/
def Obligations.CrcTableContent : Prop :=
  (∀ i : Byte, crc8Entry i = (bitsMSB i).foldl
    (fun (c : Byte) x => if (x ^^ c.getLsbD 7) = true then (c <<< 1) ^^^ 0xD5 else c <<< 1) 0) ∧
  crc8Entry 0x00 = 0x00 ∧ crc8Entry 0x01 = 0xD5 ∧ crc8Entry 0x02 = 0x7F ∧ crc8Entry 0x80 = 0xEF ∧
  crc8Entry 0xFF = 0xF9

/-- 40_framer.md R138: folding bytes through the table is the bit-serial MSB-first CRC-8 of all their bits, and the check
value of "123456789" is 0xBC. -/
def Obligations.PayloadCrcIsBitSerial : Prop :=
  (∀ bs : List Byte, crc8Bytes bs = (bs.flatMap fun b => bitsMSB b).foldl
    (fun (c : Byte) x => if (x ^^ c.getLsbD 7) = true then (c <<< 1) ^^^ 0xD5 else c <<< 1) 0) ∧
  crc8Bytes [0x31, 0x32, 0x33, 0x34, 0x35, 0x36, 0x37, 0x38, 0x39] = 0xBC

/-- 40_framer.md R139: the header CRC register, emitted LSB-first, is the MSB-first CRC-8 with generator 0xD5 of the same
bits, in high-efficiency mode with its last bit flipped; and a change of any single header bit changes it. -/
def Obligations.HeaderCrcLaw : Prop :=
  (∀ h : List Bool, let crc : Byte := (h.foldl
      (fun (c : Byte) x => if (x ^^ c.getLsbD 7) = true then (c <<< 1) ^^^ 0xD5 else c <<< 1) 0)
    bitsLSB (headerCrcRegister h) = bitsMSB crc ∧ bitsLSB (headerCrc true h) = bitsMSB (crc ^^^ 0x01)) ∧
  (∀ (before after : List Bool) (x : Bool),
    headerCrcRegister (before ++ x :: after) ≠ headerCrcRegister (before ++ (!x) :: after))

/-! ## Synthesizer: configuration and forecast -/

/-- 10_state.md R24, R37 and R38, 41_synth.md R171: the tables of the derived parameters; every kbch is a multiple of 8
and every guard interval is exact. Most entries are general knowledge of the spec (log entry 12). -/
def Obligations.DerivedParameterTables : Prop :=
  (List.range 8).map (fun r => kbchTable false (BitVec.ofNat 3 r)) =
    [32208, 38688, 43040, 48408, 51648, 53840, 21408, 25728] ∧
  (List.range 8).map (fun r => kbchTable true (BitVec.ofNat 3 r)) =
    [7032, 9552, 10632, 11712, 12432, 13152, 5232, 6312] ∧
  (∀ short rate, kbchTable short rate % 8 = 0) ∧
  (List.range 7).map (fun c => (fftSizeTable (BitVec.ofNat 3 c), np2Table (BitVec.ofNat 3 c),
      cpsTable (BitVec.ofNat 3 c) false, cpsTable (BitVec.ofNat 3 c) true)) =
    [(2048, 8, 1705, 1705), (8192, 2, 6817, 6913), (4096, 4, 3409, 3409), (1024, 16, 853, 853),
     (16384, 1, 13633, 13921), (32768, 1, 27265, 27841), (8192, 2, 6817, 6913)] ∧
  (List.range 7).map (fun c => giTable (BitVec.ofNat 3 c)) =
    [(1, 32), (1, 16), (1, 8), (1, 4), (1, 128), (19, 128), (19, 256)] ∧
  ∀ fft gi : BitVec 3, fft ≠ 7 → gi ≠ 7 → fftSizeTable fft * (giTable gi).1 % (giTable gi).2 = 0

/-- 41_synth.md R170, R171 and R180: SY_CONFIG with legal operands on an UNCONFIGURED unit writes the configuration, the
derived registers, the window and both waveform tables, sets CONFIGURED, answers insertion_items, and changes nothing
else. -/
def Obligations.SyConfigConfigures : Prop :=
  ∀ (w1 w2 : Word) (window : List Word) (s : State), Unconfigured s.sy.status → w1 &&& 0xFFFFF88E = 0 →
    w1.extractLsb' 4 3 ≠ 7 → w1.extractLsb' 8 3 ≠ 7 → (∀ x ∈ window, x.extractLsb' 23 8 ≠ 0xFF) →
    let fft := fftSizeTable (w1.extractLsb' 4 3)
    let np2 := np2Table (w1.extractLsb' 4 3)
    let gi := fft * (giTable (w1.extractLsb' 8 3)).1 / (giTable (w1.extractLsb' 8 3)).2
    let cps := cpsTable (w1.extractLsb' 4 3) (w1.getLsbD 0)
    let frameItems := (w2.toNat + np2) * (fft + gi)
    frameItems + 2048 < 2 ^ 32 →
    exec (.syConfig w1 w2 window) s = .next { s with
      sy := { status := s.sy.status ||| 1, cfg := w1, nData := w2, fftSize := BitVec.ofNat 32 fft,
              np2 := BitVec.ofNat 32 np2, cps := BitVec.ofNat 32 cps, gi := BitVec.ofNat 32 gi,
              frameItems := BitVec.ofNat 32 frameItems, insertionItems := BitVec.ofNat 32 (frameItems + 2048),
              scale := scaleConstant cps, win := window,
              p1A := (List.range 1024).map (Config.p1Round (exactA (w1.extractLsb' 4 3) window)),
              p1Sh := (List.range 1024).map (Config.p1Round (exactSh (w1.extractLsb' 4 3) window)) }
      responses := s.responses ++ [.ok [BitVec.ofNat 32 (frameItems + 2048)]] }

/-- 41_synth.md R170 and R172, 60_exceptions.md R233: which fault SY_CONFIG ends with, the checks in their order. -/
def Obligations.SyConfigFaultOrder : Prop :=
  ∀ (w1 w2 : Word) (window : List Word) (s : State),
    (isFaulted s.sy.status = true → exec (.syConfig w1 w2 window) s = .next (faultCommand .syConfig .unitFaulted s)) ∧
    (Ready s.sy.status → exec (.syConfig w1 w2 window) s = .next (faultCommand .syConfig .alreadyConfigured s)) ∧
    (Unconfigured s.sy.status → w1 &&& 0xFFFFF88E ≠ 0 →
      exec (.syConfig w1 w2 window) s = .next (faultCommand .syConfig .badOperand s)) ∧
    (Unconfigured s.sy.status → w1 &&& 0xFFFFF88E = 0 →
      w1.extractLsb' 4 3 = 7 ∨ w1.extractLsb' 8 3 = 7 ∨ (∃ x ∈ window, x.extractLsb' 23 8 = 0xFF) ∨
        2 ^ 32 ≤ insertionItemsOf w1 w2 →
      exec (.syConfig w1 w2 window) s = .next (faultCommand .syConfig .configError s))

/-- 41_synth.md R173: the stored waveforms depend on the FFT code and the window alone: two successful configurations
that agree in them hold the same P1_A and P1_SH, whatever the carrier mode, the guard interval and numDataSymbols. -/
def Obligations.WaveformsDependOnlyOnFftAndWindow : Prop :=
  ∀ (w1 w1' w2 w2' : Word) (window : List Word) (s s' t t' : State) (r r' : Word),
    exec (.syConfig w1 w2 window) s = .next t → t.responses = s.responses ++ [.ok [r]] →
    exec (.syConfig w1' w2' window) s' = .next t' → t'.responses = s'.responses ++ [.ok [r']] →
    w1.extractLsb' 4 3 = w1'.extractLsb' 4 3 → t.sy.p1A = t'.sy.p1A ∧ t.sy.p1Sh = t'.sy.p1Sh

/-- 41_synth.md R182: SY_FORECAST on a READY unit answers frame_items times the whole chunks in N, which is not above N,
and changes nothing else; on a FAULTED or UNCONFIGURED unit it faults. -/
def Obligations.SyForecastAnswers : Prop :=
  ∀ (n : Word) (s : State),
    (s.sy.Legal → Ready s.sy.status → s.sy.frameItems.toNat * (n.toNat / s.sy.insertionItems.toNat) ≤ n.toNat ∧
      exec (.syForecast n) s = .next { s with
        responses := s.responses ++
          [.ok [BitVec.ofNat 32 (s.sy.frameItems.toNat * (n.toNat / s.sy.insertionItems.toNat))]] }) ∧
    (isFaulted s.sy.status = true → exec (.syForecast n) s = .next (faultCommand .syForecast .unitFaulted s)) ∧
    (Unconfigured s.sy.status → exec (.syForecast n) s = .next (faultCommand .syForecast .unconfigured s))

/-! ## Synthesizer: work -/

/-- 41_synth.md R183 to R187, 30_encoding.md R92, 20_memory.md R62: SY_WORK on a READY unit with N a multiple of
insertion_items, room for N samples and the input it needs answers the consumed and produced counts and writes no
register or table; every chunk holds the preamble at the positions of the layout and then its scaled input samples;
output elements from N on are unchanged (all but for elements the host itself writes, 70_reset_and_hazards.md R265). -/
def Obligations.SyWorkEmitsChunks : Prop :=
  ∀ (n : Word) (s : State), s.sy.Legal → Ready s.sy.status → n.toNat % s.sy.insertionItems.toNat = 0 →
    n.toNat ≤ (handedSy s).output.length →
    n.toNat / s.sy.insertionItems.toNat * s.sy.frameItems.toNat ≤ (handedSy s).input.length →
    let k := n.toNat / s.sy.insertionItems.toNat
    let items := s.sy.insertionItems.toNat
    ∃ out, exec (.syWork n) s = .next { s with
        syBufs := s.syBufs.tail
        syReturned := s.syReturned ++ [{ handedSy s with output := out }]
        responses := s.responses ++ [.ok [BitVec.ofNat 32 (k * s.sy.frameItems.toNat), n]]
        draws := s.draws + 1 } ∧
      out.length = (handedSy s).output.length ∧ items = 2048 + s.sy.frameItems.toNat ∧
      (∀ f j, f < k → j < 482 → f * items + j ∉ (handedSy s).hostWrites →
        out[f * items + j]? = s.sy.p1Sh[542 + j]?) ∧
      (∀ f j, f < k → j < 1024 → f * items + 482 + j ∉ (handedSy s).hostWrites →
        out[f * items + 482 + j]? = s.sy.p1A[j]?) ∧
      (∀ f j, f < k → j < 542 → f * items + 1506 + j ∉ (handedSy s).hostWrites →
        out[f * items + 1506 + j]? = s.sy.p1Sh[j]?) ∧
      (∀ f j, f < k → j < s.sy.frameItems.toNat → f * items + 2048 + j ∉ (handedSy s).hostWrites →
        out[f * items + 2048 + j]? = ((handedSy s).input[f * s.sy.frameItems.toNat + j]?).map
          fun z => ⟨mul32 z.re s.sy.scale, mul32 z.im s.sy.scale⟩) ∧
      (∀ j, n.toNat ≤ j → j ∉ (handedSy s).hostWrites → out[j]? = (handedSy s).output[j]?)

/-- 41_synth.md R183 and R184, 60_exceptions.md R233: which fault SY_WORK ends with, the checks in their order. -/
def Obligations.SyWorkFaultOrder : Prop :=
  ∀ (n : Word) (s : State),
    (isFaulted s.sy.status = true → exec (.syWork n) s = .next (faultCommand .syWork .unitFaulted s)) ∧
    (Unconfigured s.sy.status → exec (.syWork n) s = .next (faultCommand .syWork .unconfigured s)) ∧
    (Ready s.sy.status → n.toNat % s.sy.insertionItems.toNat ≠ 0 →
      exec (.syWork n) s = .next (faultCommand .syWork .badSize s)) ∧
    (Ready s.sy.status → n.toNat % s.sy.insertionItems.toNat = 0 → (handedSy s).output.length < n.toNat →
      exec (.syWork n) s = .next (faultCommand .syWork .outputOverflow s)) ∧
    (Ready s.sy.status → n.toNat % s.sy.insertionItems.toNat = 0 → n.toNat ≤ (handedSy s).output.length →
      (handedSy s).input.length < n.toNat / s.sy.insertionItems.toNat * s.sy.frameItems.toNat →
      exec (.syWork n) s = .next (faultCommand .syWork .inputUnderrun s))

/-! ## Synthesizer: numbers -/

/-- 10_state.md R41: SY_SCALE of every legal configuration is the binary32 value nearest to 5 / sqrt(27 C_PS): the squares
of the midpoints to its neighbours enclose 25 / (27 C_PS). -/
def Obligations.ScaleIsNearest : Prop :=
  ∀ (fft : BitVec 3) (extended : Bool), fft ≠ 7 → let cps := cpsTable fft extended
    let c := scaleConstant cps
    let halfUlp : ℚ := 2 ^ scaleExp c / 2 ^ 151
    c.msb = false ∧ 0 < expField c ∧ expField c < 255 ∧ fracField c ≠ 0 ∧
    (binary32Value c - halfUlp) ^ 2 * (27 * cps) < 25 ∧ 25 < (binary32Value c + halfUlp) ^ 2 * (27 * cps)

/-- 41_synth.md R186: scaling by a positive finite constant keeps the signs of zeros and infinities, and gives a quiet NaN
for a NaN whatever its payload. -/
def Obligations.ScalingSpecialValues : Prop :=
  ∀ (x c : Word), c.msb = false → isFiniteEncoding c = true → significand c ≠ 0 →
    (x = 0x00000000 ∨ x = 0x80000000 ∨ x = 0x7F800000 ∨ x = 0xFF800000 → mul32 x c = x) ∧
    (isNaN x = true → isNaN (mul32 x c) = true ∧ (mul32 x c).getLsbD 22 = true) ∧
    (isNaN x = false → isNaN (mul32 x c) = false ∧ (mul32 x c).msb = x.msb)

/-- 41_synth.md R186 and 00_scope.md R13: the product of two finite values whose exact product is below 2^128 - 2^103 in
magnitude, halfway from the largest finite value to 2^128, is finite and a nearest binary32 value to the exact product,
subnormals included, and has an even significand where another value is as near; at that bound and above the product is the
infinity of its sign. -/
def Obligations.ScalingRoundsToNearestEven : Prop :=
  ∀ x c y : Word, isFiniteEncoding x = true → isFiniteEncoding c = true → isFiniteEncoding y = true →
    let exact := binary32Value x * binary32Value c
    (|exact| < 2 ^ 128 - 2 ^ 103 → isFiniteEncoding (mul32 x c) = true ∧
      |binary32Value (mul32 x c) - exact| ≤ |binary32Value y - exact| ∧
      (|binary32Value (mul32 x c) - exact| = |binary32Value y - exact| →
        binary32Value y = binary32Value (mul32 x c) ∨ (mul32 x c).getLsbD 0 = false)) ∧
    (2 ^ 128 - 2 ^ 103 ≤ |exact| → mul32 x c = if x.msb = c.msb then 0x7F800000 else 0xFF800000)

/-! ## Synthesizer: the exact waveforms -/

/-- 41_synth.md R174 to R178: the signalling sequence is S1, S2, S1 from the rows the FFT code selects, byte 0 first and
MSB-first; the modulation values come from its differential encoding d from a leading 1 and from the scrambling bits of a
register r that starts at 0x4E46; the carriers are 384 distinct bins below 1024, and the spectrum holds the modulation
values, +1 or -1, at exactly those bins and 0 elsewhere. The order and the recurrence are the spec's general knowledge (log
entry 12). -/
def Obligations.SpectrumShape : Prop :=
  ∀ fft : BitVec 3, (signalling fft).length = 384 ∧ (modulation fft).length = 384 ∧
    (∀ (j : Fin 8) (b : Nat), b < 8 → let bit := (Config.s1Rows 0 j).getLsbD (7 - b)
      (signalling fft)[8 * j.val + b]? = some bit ∧ (signalling fft)[320 + 8 * j.val + b]? = some bit) ∧
    (∀ (row : Fin 16) (j : Fin 32) (b : Nat), row.val = 2 * fft.toNat → b < 8 →
      (signalling fft)[64 + 8 * j.val + b]? = some ((Config.s2Rows row j).getLsbD (7 - b))) ∧
    (∃ (d : Nat → Bool) (r : Nat → BitVec 18), d 0 = true ∧ r 0 = 0x4E46 ∧ ∀ i, i < 384 →
      let tapped := (r i).getLsbD Config.p1PrbsTaps.tapA.val ^^ (r i).getLsbD Config.p1PrbsTaps.tapB.val
      (signalling fft)[i]? = some (d i ^^ d (i + 1)) ∧ r (i + 1) = Config.p1PrbsTaps.shift (r i) tapped ∧
      (modulation fft)[i]? = some ((1 - 2 * (d (i + 1)).toInt) * (1 - 2 * (Config.p1PrbsTaps.output (r i) tapped).toInt))) ∧
    carrierBins.length = 384 ∧ carrierBins.Nodup ∧ (∀ k ∈ carrierBins, 86 ≤ k ∧ k < 1024) ∧
    (∀ i, i < 384 → ∀ k, carrierBins[i]? = some k → (modulation fft)[i]? = some (spectrum fft k)) ∧
    (∀ k, k ∈ carrierBins → spectrum fft k = 1 ∨ spectrum fft k = -1) ∧
    (∀ k, k ∉ carrierBins → spectrum fft k = 0) ∧
    (∀ k, k < 1024 → shiftedSpectrum fft ((k + 1) % 1024) = spectrum fft k)

/-- 41_synth.md R181, Shift: with the window 1.0 everywhere, SH_exact[n] is A_exact[n] turned by n/1024. -/
def Obligations.WaveformShiftLaw : Prop :=
  ∀ (fft : BitVec 3) (n : Nat), let ones := List.replicate 1024 (0x3F800000 : Word)
    exactComplex (exactSh fft ones n) =
      exactComplex (exactA fft ones n) * Complex.exp (2 * Real.pi * Complex.I * n / 1024)

/-- 41_synth.md R181, Energy: the energy of A_exact is 1024/384 times the sum of the squared window values at the
carriers, for every FFT class and every window. -/
def Obligations.WaveformEnergyLaw : Prop :=
  ∀ (fft : BitVec 3) (window : List Word),
    ((List.range 1024).map fun n => Complex.normSq (exactComplex (exactA fft window n))).sum =
      1024 / 384 * (carrierBins.map fun k => ((binary32Value (window.getD k 0) : ℚ) : ℝ) ^ 2).sum

/-- 41_synth.md R179: the exact waveforms are the sums of the rule: bin k of the spectrum, times the window there, stands at
position (k + 512) mod 1024 of an unnormalized inverse transform, and the whole is divided by the square root of 384. -/
def Obligations.WaveformIsInverseTransform : Prop :=
  ∀ (fft : BitVec 3) (window : List Word) (n : Nat), let value := fun z : Nat → Int =>
      (∑ k ∈ Finset.range 1024, (z k : ℂ) * ((binary32Value (window.getD k 0) : ℚ) : ℂ) *
        Complex.exp (2 * Real.pi * Complex.I * (((k + 512) % 1024 : ℕ) : ℂ) * n / 1024)) / (Real.sqrt 384 : ℂ)
    exactComplex (exactA fft window n) = value (spectrum fft) ∧
    exactComplex (exactSh fft window n) = value (shiftedSpectrum fft)
end

