-- ==== Sys2Proof/Laws/Decode.lean ====
section
/-! SUPPORT. The fields of a command word read back what was put in (30_encoding.md R80, R83). -/

namespace Sys2Proof

@[simp] theorem opcodeOf_opcodeByte (op : Opcode) : opcodeOf (opcodeByte op) = some op := by cases op <;> rfl

@[simp] theorem opcField_commandWord (op : Opcode) (imm : BitVec 24) :
    opcField (commandWord op imm) = opcodeByte op := by
  unfold opcField commandWord; exact BitVec.extractLsb'_append_eq_left

@[simp] theorem imm24Field_commandWord (op : Opcode) (imm : BitVec 24) : imm24Field (commandWord op imm) = imm := by
  unfold imm24Field commandWord; exact BitVec.extractLsb'_append_eq_right

/-- A listed opcode number is the number of the opcode it decodes to. -/
theorem opcodeByte_of_opcodeOf {b : Byte} {op : Opcode} (h : opcodeOf b = some op) : opcodeByte op = b := by
  revert h; revert op; revert b; decide

end Sys2Proof
end

