-- ==== Sys2Proof/Laws/Flags.lean ====
section
/-! SUPPORT. What each update of a status register leaves in each of its fields (10_state.md R32 and R45,
60_exceptions.md R231). -/

namespace Sys2Proof.Machine

open Sys2Proof

/-- The fault codes are 0x01 to 0x0A (60_exceptions.md R230). -/
theorem faultCodeByte_range (c : FaultCode) : 1 ≤ (faultCodeByte c).toNat ∧ (faultCodeByte c).toNat ≤ 10 := by
  cases c <;> decide

/-- Two codes with one number are one code. -/
theorem faultCodeByte_injective {c d : FaultCode} (h : faultCodeByte c = faultCodeByte d) : c = d := by
  revert h; cases c <;> cases d <;> decide

/-- Bit k of a status after a fault: FAULTED is set, FAULTCODE takes the code only if no fault stood before. -/
theorem getLsbD_recordFault (c : FaultCode) (status : Word) (k : Nat) (hk : k < 32) :
    (recordFault c status).getLsbD k =
      (decide (k = 1) || (if isFaulted status = false ∧ 8 ≤ k ∧ k < 16 then (faultCodeByte c).getLsbD (k - 8)
        else status.getLsbD k)) := by
  unfold recordFault setFaultCode
  cases hf : isFaulted status <;> interval_cases k <;> simp

@[simp] theorem isConfigured_recordFault (c : FaultCode) (status : Word) :
    isConfigured (recordFault c status) = isConfigured status := by
  rw [isConfigured, getLsbD_recordFault _ _ _ (by decide)]; simp [isConfigured]

@[simp] theorem isSyncErr_recordFault (c : FaultCode) (status : Word) :
    isSyncErr (recordFault c status) = isSyncErr status := by
  rw [isSyncErr, getLsbD_recordFault _ _ _ (by decide)]; simp [isSyncErr]

@[simp] theorem isFaulted_recordFault (c : FaultCode) (status : Word) : isFaulted (recordFault c status) = true := by
  rw [isFaulted, getLsbD_recordFault _ _ _ (by decide)]; simp

/-- The first code stays (60_exceptions.md R231, R232). -/
@[simp] theorem faultCodeField_recordFault (c : FaultCode) (status : Word) :
    faultCodeField (recordFault c status) = if isFaulted status then faultCodeField status else faultCodeByte c := by
  ext k hk
  simp only [faultCodeField, BitVec.getElem_extractLsb', getLsbD_recordFault c status (8 + k) (by omega)]
  have h1 : ¬ 8 + k = 1 := by omega
  cases hf : isFaulted status
  · have : 8 + k < 16 := by omega
    simp [h1, this, BitVec.getLsbD_eq_getElem hk]
  · simp [h1]

@[simp] theorem isConfigured_setSyncErr (status : Word) : isConfigured (setSyncErr status) = isConfigured status := by
  simp [isConfigured, setSyncErr]

@[simp] theorem isFaulted_setSyncErr (status : Word) : isFaulted (setSyncErr status) = isFaulted status := by
  simp [isFaulted, setSyncErr]

@[simp] theorem isSyncErr_setSyncErr (status : Word) : isSyncErr (setSyncErr status) = true := by
  simp [isSyncErr, setSyncErr]

@[simp] theorem isConfigured_setConfigured (status : Word) : isConfigured (setConfigured status) = true := by
  simp [isConfigured, setConfigured]

@[simp] theorem isFaulted_setConfigured (status : Word) : isFaulted (setConfigured status) = isFaulted status := by
  simp [isFaulted, setConfigured]

@[simp] theorem isSyncErr_setConfigured (status : Word) : isSyncErr (setConfigured status) = isSyncErr status := by
  simp [isSyncErr, setConfigured]

@[simp] theorem faultCodeField_setSyncErr (status : Word) :
    faultCodeField (setSyncErr status) = faultCodeField status := by
  ext k hk
  simp only [faultCodeField, setSyncErr, BitVec.getElem_extractLsb', BitVec.getLsbD_or]
  interval_cases k <;> simp

@[simp] theorem faultCodeField_setConfigured (status : Word) :
    faultCodeField (setConfigured status) = faultCodeField status := by
  ext k hk
  simp only [faultCodeField, setConfigured, BitVec.getElem_extractLsb', BitVec.getLsbD_or]
  interval_cases k <;> simp

/-- Setting bits outside a mask leaves a status that is 0 under the mask so. -/
theorem and_or_eq_zero {a m b : Word} (h : a &&& m = 0) (hb : b &&& m = 0) : (a ||| b) &&& m = 0 := by
  ext k hk
  have h1 := congrArg (fun v : Word => v[k]) h
  have h2 := congrArg (fun v : Word => v[k]) hb
  simp only [BitVec.getElem_and] at h1 h2
  simp only [BitVec.getElem_and, BitVec.getElem_or, Bool.and_or_distrib_right, h1, h2, Bool.or_self]

/-- A fault leaves the bits outside FAULTED and FAULTCODE as they are (60_exceptions.md R231). -/
theorem recordFault_and (c : FaultCode) (status : Word) :
    recordFault c status &&& 0xFFFF00FD = status &&& 0xFFFF00FD := by
  ext k hk
  have h := getLsbD_recordFault c status k hk
  rw [BitVec.getLsbD_eq_getElem hk, BitVec.getLsbD_eq_getElem hk] at h
  simp only [BitVec.getElem_and, h]
  interval_cases k <;> simp

end Sys2Proof.Machine
end

