-- ==== Sys2Proof/Laws/Framer.lean ====
section
/-! SUPPORT. Small lemmas of the bit sequences and of the steps of a frame: lengths, and what a payload byte, a payload
and the end of a frame leave of the configuration (40_framer.md R131 to R135). -/

namespace Sys2Proof.Machine

open Sys2Proof

@[simp] theorem length_bitsMSB {w : Nat} (v : BitVec w) : (bitsMSB v).length = w := by simp [bitsMSB]
@[simp] theorem length_bitsLSB {w : Nat} (v : BitVec w) : (bitsLSB v).length = w := by simp [bitsLSB]
@[simp] theorem length_elements (bs : List Bool) : (elements bs).length = bs.length := by simp [elements]

/-- The in-band field has 104 bits (30_encoding.md R90). -/
@[simp] theorem length_inbandField (tsRate : Word) : (inbandField tsRate).length = 104 := by simp [inbandField]

/-- The header fields have 72 bits (R128). -/
@[simp] theorem length_headerFields (u : FrUnit) : (headerFields u).length = 72 := by simp [headerFields]

/-- Padding is 0 or 104 (R127). -/
theorem framePadding_cases (u : FrUnit) : framePadding u = 0 ∨ framePadding u = 104 := by
  unfold framePadding inbandBits; split <;> simp

/-- `(count + 1) mod 188` as a number (R132). -/
@[simp] theorem toNat_nextCount (c : Byte) : (nextCount c).toNat = (c.toNat + 1) % packetSize := by
  simp only [nextCount, packetSize, BitVec.toNat_ofNat]; omega

section PayloadByte
variable (u : FrUnit) (b : Byte)

@[simp] theorem payloadByte_cfg : (payloadByte u b).unit.cfg = u.cfg := by
  unfold payloadByte syncCheck; split_ifs <;> rfl
@[simp] theorem payloadByte_fecBlocks : (payloadByte u b).unit.fecBlocks = u.fecBlocks := by
  unfold payloadByte syncCheck; split_ifs <;> rfl
@[simp] theorem payloadByte_tsRate : (payloadByte u b).unit.tsRate = u.tsRate := by
  unfold payloadByte syncCheck; split_ifs <;> rfl
@[simp] theorem payloadByte_kbch : (payloadByte u b).unit.kbch = u.kbch := by
  unfold payloadByte syncCheck; split_ifs <;> rfl
@[simp] theorem payloadByte_fecBlock : (payloadByte u b).unit.fecBlock = u.fecBlock := by
  unfold payloadByte syncCheck; split_ifs <;> rfl
@[simp] theorem payloadByte_count : (payloadByte u b).unit.count = nextCount u.count := by
  unfold payloadByte syncCheck; split_ifs <;> rfl

end PayloadByte

section PayloadRun
variable (u : FrUnit) (slots : Nat) (input : List Byte)

/-- Filling slots leaves the configuration and the FEC-block counter (R132). -/
theorem payloadRun_config : (payloadRun u slots input).unit.cfg = u.cfg ∧
    (payloadRun u slots input).unit.fecBlocks = u.fecBlocks ∧ (payloadRun u slots input).unit.tsRate = u.tsRate ∧
    (payloadRun u slots input).unit.kbch = u.kbch ∧ (payloadRun u slots input).unit.fecBlock = u.fecBlock := by
  induction input generalizing u slots with
  | nil => exact ⟨rfl, rfl, rfl, rfl, rfl⟩
  | cons b bs ih =>
    unfold payloadRun
    split
    · exact ⟨rfl, rfl, rfl, rfl, rfl⟩
    · simpa using ih (payloadByte u b).unit (slots - (payloadByte u b).emitted.toList.length)

@[simp] theorem payloadRun_cfg : (payloadRun u slots input).unit.cfg = u.cfg := (payloadRun_config u slots input).1
@[simp] theorem payloadRun_fecBlocks : (payloadRun u slots input).unit.fecBlocks = u.fecBlocks :=
  (payloadRun_config u slots input).2.1
@[simp] theorem payloadRun_tsRate : (payloadRun u slots input).unit.tsRate = u.tsRate :=
  (payloadRun_config u slots input).2.2.1
@[simp] theorem payloadRun_kbch : (payloadRun u slots input).unit.kbch = u.kbch :=
  (payloadRun_config u slots input).2.2.2.1
@[simp] theorem payloadRun_fecBlock : (payloadRun u slots input).unit.fecBlock = u.fecBlock :=
  (payloadRun_config u slots input).2.2.2.2

end PayloadRun

/-- The end of a frame changes the FEC-block counter alone (R135). -/
theorem advanceFecBlock_eq (u : FrUnit) : advanceFecBlock u = { u with fecBlock := (advanceFecBlock u).fecBlock } := by
  unfold advanceFecBlock; split <;> rfl

end Sys2Proof.Machine
end

