-- ==== Sys2Proof/Laws/State.lean ====
section
/-! SUPPORT. What each plain update of State leaves in each field, one lemma per field, so that no proof unfolds a record
update. -/

namespace Sys2Proof.Machine

open Sys2Proof

/-! ## Reset -/

theorem length_reset_win : SyUnit.reset.win.length = 1024 := List.length_replicate
theorem length_reset_p1A : SyUnit.reset.p1A.length = 1024 := List.length_replicate
theorem length_reset_p1Sh : SyUnit.reset.p1Sh.length = 1024 := List.length_replicate

/-! ## Updates -/

variable (s : State)

@[simp] theorem respond_fr (r : Response) : (respond r s).fr = s.fr := rfl
@[simp] theorem respond_sy (r : Response) : (respond r s).sy = s.sy := rfl
@[simp] theorem respond_log (r : Response) : (respond r s).log = s.log := rfl
@[simp] theorem respond_port (r : Response) : (respond r s).port = s.port := rfl
@[simp] theorem respond_frBufs (r : Response) : (respond r s).frBufs = s.frBufs := rfl
@[simp] theorem respond_syBufs (r : Response) : (respond r s).syBufs = s.syBufs := rfl
@[simp] theorem respond_responses (r : Response) : (respond r s).responses = s.responses ++ [r] := rfl
@[simp] theorem respond_frReturned (r : Response) : (respond r s).frReturned = s.frReturned := rfl
@[simp] theorem respond_syReturned (r : Response) : (respond r s).syReturned = s.syReturned := rfl
@[simp] theorem respond_resetPin (r : Response) : (respond r s).resetPin = s.resetPin := rfl
@[simp] theorem respond_draws (r : Response) : (respond r s).draws = s.draws := rfl

@[simp] theorem logEvents_fr (es : List Event) : (logEvents es s).fr = s.fr := rfl
@[simp] theorem logEvents_sy (es : List Event) : (logEvents es s).sy = s.sy := rfl
@[simp] theorem logEvents_log (es : List Event) : (logEvents es s).log = s.log ++ es := rfl
@[simp] theorem logEvents_port (es : List Event) : (logEvents es s).port = s.port := rfl
@[simp] theorem logEvents_frBufs (es : List Event) : (logEvents es s).frBufs = s.frBufs := rfl
@[simp] theorem logEvents_syBufs (es : List Event) : (logEvents es s).syBufs = s.syBufs := rfl
@[simp] theorem logEvents_responses (es : List Event) : (logEvents es s).responses = s.responses := rfl
@[simp] theorem logEvents_frReturned (es : List Event) : (logEvents es s).frReturned = s.frReturned := rfl
@[simp] theorem logEvents_syReturned (es : List Event) : (logEvents es s).syReturned = s.syReturned := rfl
@[simp] theorem logEvents_resetPin (es : List Event) : (logEvents es s).resetPin = s.resetPin := rfl
@[simp] theorem logEvents_draws (es : List Event) : (logEvents es s).draws = s.draws := rfl

@[simp] theorem returnFr_fr (out : List Byte) : (returnFr out s).fr = s.fr := rfl
@[simp] theorem returnFr_sy (out : List Byte) : (returnFr out s).sy = s.sy := rfl
@[simp] theorem returnFr_log (out : List Byte) : (returnFr out s).log = s.log := rfl
@[simp] theorem returnFr_port (out : List Byte) : (returnFr out s).port = s.port := rfl
@[simp] theorem returnFr_frBufs (out : List Byte) : (returnFr out s).frBufs = s.frBufs.tail := rfl
@[simp] theorem returnFr_syBufs (out : List Byte) : (returnFr out s).syBufs = s.syBufs := rfl
@[simp] theorem returnFr_responses (out : List Byte) : (returnFr out s).responses = s.responses := rfl
@[simp] theorem returnFr_frReturned (out : List Byte) :
    (returnFr out s).frReturned = s.frReturned ++ [{ handedFr s with output := out }] := rfl
@[simp] theorem returnFr_syReturned (out : List Byte) : (returnFr out s).syReturned = s.syReturned := rfl
@[simp] theorem returnFr_resetPin (out : List Byte) : (returnFr out s).resetPin = s.resetPin := rfl
@[simp] theorem returnFr_draws (out : List Byte) : (returnFr out s).draws = s.draws + 1 := rfl

@[simp] theorem returnSy_fr (out : List Sample) : (returnSy out s).fr = s.fr := rfl
@[simp] theorem returnSy_sy (out : List Sample) : (returnSy out s).sy = s.sy := rfl
@[simp] theorem returnSy_log (out : List Sample) : (returnSy out s).log = s.log := rfl
@[simp] theorem returnSy_port (out : List Sample) : (returnSy out s).port = s.port := rfl
@[simp] theorem returnSy_frBufs (out : List Sample) : (returnSy out s).frBufs = s.frBufs := rfl
@[simp] theorem returnSy_syBufs (out : List Sample) : (returnSy out s).syBufs = s.syBufs.tail := rfl
@[simp] theorem returnSy_responses (out : List Sample) : (returnSy out s).responses = s.responses := rfl
@[simp] theorem returnSy_frReturned (out : List Sample) : (returnSy out s).frReturned = s.frReturned := rfl
@[simp] theorem returnSy_syReturned (out : List Sample) :
    (returnSy out s).syReturned = s.syReturned ++ [{ handedSy s with output := out }] := rfl
@[simp] theorem returnSy_resetPin (out : List Sample) : (returnSy out s).resetPin = s.resetPin := rfl
@[simp] theorem returnSy_draws (out : List Sample) : (returnSy out s).draws = s.draws + 1 := rfl

@[simp] theorem completeFr_fr (out : List Byte) : (completeFr out s).fr = s.fr := rfl
@[simp] theorem completeFr_sy (out : List Byte) : (completeFr out s).sy = s.sy := rfl
@[simp] theorem completeFr_log (out : List Byte) : (completeFr out s).log = s.log := rfl
@[simp] theorem completeFr_port (out : List Byte) : (completeFr out s).port = s.port := rfl
@[simp] theorem completeFr_frBufs (out : List Byte) : (completeFr out s).frBufs = s.frBufs.tail := rfl
@[simp] theorem completeFr_syBufs (out : List Byte) : (completeFr out s).syBufs = s.syBufs := rfl
@[simp] theorem completeFr_responses (out : List Byte) : (completeFr out s).responses = s.responses := rfl
@[simp] theorem completeFr_frReturned (out : List Byte) :
    (completeFr out s).frReturned = s.frReturned ++ [
      { handedFr s with
        output := overlay (Config.freeByte s.draws) (handedFr s).hostWrites 0 (emitInto out (handedFr s).output) }] := rfl
@[simp] theorem completeFr_syReturned (out : List Byte) : (completeFr out s).syReturned = s.syReturned := rfl
@[simp] theorem completeFr_resetPin (out : List Byte) : (completeFr out s).resetPin = s.resetPin := rfl
@[simp] theorem completeFr_draws (out : List Byte) : (completeFr out s).draws = s.draws + 1 := rfl

@[simp] theorem completeSy_fr (out : List Sample) : (completeSy out s).fr = s.fr := rfl
@[simp] theorem completeSy_sy (out : List Sample) : (completeSy out s).sy = s.sy := rfl
@[simp] theorem completeSy_log (out : List Sample) : (completeSy out s).log = s.log := rfl
@[simp] theorem completeSy_port (out : List Sample) : (completeSy out s).port = s.port := rfl
@[simp] theorem completeSy_frBufs (out : List Sample) : (completeSy out s).frBufs = s.frBufs := rfl
@[simp] theorem completeSy_syBufs (out : List Sample) : (completeSy out s).syBufs = s.syBufs.tail := rfl
@[simp] theorem completeSy_responses (out : List Sample) : (completeSy out s).responses = s.responses := rfl
@[simp] theorem completeSy_frReturned (out : List Sample) : (completeSy out s).frReturned = s.frReturned := rfl
@[simp] theorem completeSy_syReturned (out : List Sample) :
    (completeSy out s).syReturned = s.syReturned ++ [
      { handedSy s with
        output := overlay (Config.freeSample s.draws) (handedSy s).hostWrites 0 (emitInto out (handedSy s).output) }] := rfl
@[simp] theorem completeSy_resetPin (out : List Sample) : (completeSy out s).resetPin = s.resetPin := rfl
@[simp] theorem completeSy_draws (out : List Sample) : (completeSy out s).draws = s.draws + 1 := rfl

@[simp] theorem sendWords_fr (ws : List Word) : (sendWords ws s).fr = s.fr := rfl
@[simp] theorem sendWords_sy (ws : List Word) : (sendWords ws s).sy = s.sy := rfl
@[simp] theorem sendWords_log (ws : List Word) : (sendWords ws s).log = s.log := rfl
@[simp] theorem sendWords_port (ws : List Word) : (sendWords ws s).port = s.port ++ ws := rfl
@[simp] theorem sendWords_frBufs (ws : List Word) : (sendWords ws s).frBufs = s.frBufs := rfl
@[simp] theorem sendWords_syBufs (ws : List Word) : (sendWords ws s).syBufs = s.syBufs := rfl
@[simp] theorem sendWords_responses (ws : List Word) : (sendWords ws s).responses = s.responses := rfl
@[simp] theorem sendWords_frReturned (ws : List Word) : (sendWords ws s).frReturned = s.frReturned := rfl
@[simp] theorem sendWords_syReturned (ws : List Word) : (sendWords ws s).syReturned = s.syReturned := rfl
@[simp] theorem sendWords_resetPin (ws : List Word) : (sendWords ws s).resetPin = s.resetPin := rfl
@[simp] theorem sendWords_draws (ws : List Word) : (sendWords ws s).draws = s.draws := rfl

@[simp] theorem handFr_fr (b : Buffers Byte) : (handFr b s).fr = s.fr := rfl
@[simp] theorem handFr_sy (b : Buffers Byte) : (handFr b s).sy = s.sy := rfl
@[simp] theorem handFr_log (b : Buffers Byte) : (handFr b s).log = s.log := rfl
@[simp] theorem handFr_port (b : Buffers Byte) : (handFr b s).port = s.port := rfl
@[simp] theorem handFr_frBufs (b : Buffers Byte) : (handFr b s).frBufs = s.frBufs ++ [b] := rfl
@[simp] theorem handFr_syBufs (b : Buffers Byte) : (handFr b s).syBufs = s.syBufs := rfl
@[simp] theorem handFr_responses (b : Buffers Byte) : (handFr b s).responses = s.responses := rfl
@[simp] theorem handFr_frReturned (b : Buffers Byte) : (handFr b s).frReturned = s.frReturned := rfl
@[simp] theorem handFr_syReturned (b : Buffers Byte) : (handFr b s).syReturned = s.syReturned := rfl
@[simp] theorem handFr_resetPin (b : Buffers Byte) : (handFr b s).resetPin = s.resetPin := rfl
@[simp] theorem handFr_draws (b : Buffers Byte) : (handFr b s).draws = s.draws := rfl

@[simp] theorem handSy_fr (b : Buffers Sample) : (handSy b s).fr = s.fr := rfl
@[simp] theorem handSy_sy (b : Buffers Sample) : (handSy b s).sy = s.sy := rfl
@[simp] theorem handSy_log (b : Buffers Sample) : (handSy b s).log = s.log := rfl
@[simp] theorem handSy_port (b : Buffers Sample) : (handSy b s).port = s.port := rfl
@[simp] theorem handSy_frBufs (b : Buffers Sample) : (handSy b s).frBufs = s.frBufs := rfl
@[simp] theorem handSy_syBufs (b : Buffers Sample) : (handSy b s).syBufs = s.syBufs ++ [b] := rfl
@[simp] theorem handSy_responses (b : Buffers Sample) : (handSy b s).responses = s.responses := rfl
@[simp] theorem handSy_frReturned (b : Buffers Sample) : (handSy b s).frReturned = s.frReturned := rfl
@[simp] theorem handSy_syReturned (b : Buffers Sample) : (handSy b s).syReturned = s.syReturned := rfl
@[simp] theorem handSy_resetPin (b : Buffers Sample) : (handSy b s).resetPin = s.resetPin := rfl
@[simp] theorem handSy_draws (b : Buffers Sample) : (handSy b s).draws = s.draws := rfl

end Sys2Proof.Machine
end

