-- ==== Sys2Proof/Laws/Ops.lean ====
section
/-! SUPPORT. One lemma per shared operation that says everything it does, to be cited instead of unfolding it: taking a
fault (60_exceptions.md R231), answering, and the contents of an output buffer (20_memory.md R62 and R69). -/

namespace Sys2Proof.Machine

open Sys2Proof

variable (s : State)

/-! ## Output buffers -/

/-- Emitting at most the capacity leaves the buffer's length. -/
theorem length_emitInto {α : Type} {out buffer : List α} (h : out.length ≤ buffer.length) :
    (emitInto out buffer).length = buffer.length := by
  simp only [emitInto, List.length_append, List.length_drop]; omega

/-- Element j of the buffer is the j-th emitted one, or its old value from `out.length` on (R62). -/
theorem getElem?_emitInto {α : Type} (out buffer : List α) (j : Nat) :
    (emitInto out buffer)[j]? = if j < out.length then out[j]? else buffer[j]? := by
  unfold emitInto
  split
  · next h => exact List.getElem?_append_left h
  · next h =>
    rw [List.getElem?_append_right (by omega), List.getElem?_drop]
    congr 1; omega

@[simp] theorem length_overlay {α : Type} (free : Nat → α) (touched : List Nat) (j : Nat) (xs : List α) :
    (overlay free touched j xs).length = xs.length := by
  induction xs generalizing j with
  | nil => rfl
  | cons x xs ih => simp [overlay, ih]

/-- Element k after the host's writes: free where the host wrote, else as before (70_reset_and_hazards.md R265). -/
theorem getElem?_overlay {α : Type} (free : Nat → α) (touched : List Nat) (j k : Nat) (xs : List α) :
    (overlay free touched j xs)[k]? = (xs[k]?).map fun x => if j + k ∈ touched then free (j + k) else x := by
  induction xs generalizing j k with
  | nil => simp [overlay]
  | cons x xs ih =>
    cases k with
    | zero => simp [overlay]
    | succ k =>
      simp only [overlay, List.getElem?_cons_succ, ih]
      rw [show j + 1 + k = j + (k + 1) by omega]

/-- A host that writes nothing leaves the buffer as the command wrote it. -/
@[simp] theorem overlay_nil {α : Type} (free : Nat → α) (j : Nat) (xs : List α) : overlay free [] j xs = xs := by
  induction xs generalizing j with
  | nil => rfl
  | cons x xs ih => simp [overlay, ih]

@[simp] theorem length_freeAll {α : Type} (free : Nat → α) (buffer : List α) :
    (freeAll free buffer).length = buffer.length := by simp [freeAll]

/-! ## Taking a fault -/

@[simp] theorem recordUnitFault_none (code : FaultCode) : recordUnitFault none code s = s := rfl

@[simp] theorem recordUnitFault_fr (code : FaultCode) : recordUnitFault (some .fr) code s =
    { s with fr := { s.fr with status := recordFault code s.fr.status } } := rfl

@[simp] theorem recordUnitFault_sy (code : FaultCode) : recordUnitFault (some .sy) code s =
    { s with sy := { s.sy with status := recordFault code s.sy.status } } := rfl

/-- Taking a fault, field by field (60_exceptions.md R231). -/
theorem raiseFault_eq (unit : Option UnitId) (opc : Byte) (code : FaultCode) : raiseFault unit opc code s =
    { s with
      fr := (if unit = some .fr then { s.fr with status := recordFault code s.fr.status } else s.fr)
      sy := (if unit = some .sy then { s.sy with status := recordFault code s.sy.status } else s.sy)
      log := s.log ++ [.fault unit code opc]
      responses := s.responses ++ [.fault code] } := by
  rcases unit with _ | _ | _ <;> rfl

/-- A command that is no work command hands no buffers back. -/
theorem spoilBuffers_of_ne {op : Opcode} (h₁ : op ≠ .frWork) (h₂ : op ≠ .syWork) : spoilBuffers op s = s := by
  cases op <;> simp_all [spoilBuffers]

@[simp] theorem spoilBuffers_fr (op : Opcode) : (spoilBuffers op s).fr = s.fr := by cases op <;> rfl
@[simp] theorem spoilBuffers_sy (op : Opcode) : (spoilBuffers op s).sy = s.sy := by cases op <;> rfl
@[simp] theorem spoilBuffers_log (op : Opcode) : (spoilBuffers op s).log = s.log := by cases op <;> rfl
@[simp] theorem spoilBuffers_port (op : Opcode) : (spoilBuffers op s).port = s.port := by cases op <;> rfl
@[simp] theorem spoilBuffers_responses (op : Opcode) : (spoilBuffers op s).responses = s.responses := by cases op <;> rfl
@[simp] theorem spoilBuffers_resetPin (op : Opcode) : (spoilBuffers op s).resetPin = s.resetPin := by cases op <;> rfl

/-- A faulting command: its buffers are handed back unspecified, and the fault is recorded (60_exceptions.md R231,
20_memory.md R69). -/
theorem faultCommand_eq (op : Opcode) (code : FaultCode) : faultCommand op code s =
    { spoilBuffers op s with
      fr := (if opcodeUnit op = some .fr then { s.fr with status := recordFault code s.fr.status } else s.fr)
      sy := (if opcodeUnit op = some .sy then { s.sy with status := recordFault code s.sy.status } else s.sy)
      log := s.log ++ [.fault (opcodeUnit op) code (opcodeByte op)]
      responses := s.responses ++ [.fault code] } := by
  simp [faultCommand, raiseFault_eq]

/-! ## Answering -/

@[simp] theorem answerOk_eq_next (ws : List Word) (t : State) :
    answerOk ws s = .next t ↔ respond (.ok ws) s = t := by simp [answerOk]

@[simp] theorem answerFault_eq_next (op : Opcode) (code : FaultCode) (t : State) :
    answerFault op code s = .next t ↔ faultCommand op code s = t := by simp [answerFault]

end Sys2Proof.Machine
end

