-- ==== Sys2Proof/Laws/PerInstr.lean ====
section
/-! SUPPORT. The family EncodeLength: the words of every well-formed command are as many as the opcode says
(30_encoding.md R80, R83), one lemma per constructor of `Instr`. -/

namespace Sys2Proof.Laws.EncodeLength

/-- A command is one command word and `nops(OPC)` operand words. -/
def Statement (i : Instr) : Prop := i.WellFormed → (encode i).length = 1 + operandCount i.opcode

theorem nop : Statement .nop := fun _ => rfl
theorem frConfig (w1 w2 w3 : Word) : Statement (.frConfig w1 w2 w3) := fun _ => rfl
theorem frForecast (n : Word) : Statement (.frForecast n) := fun _ => rfl
theorem frWork (n : Word) : Statement (.frWork n) := fun _ => rfl
theorem frReset : Statement .frReset := fun _ => rfl
theorem syConfig (w1 w2 : Word) (window : List Word) : Statement (.syConfig w1 w2 window) := by
  intro h
  have hl : window.length = 1024 := by simpa [Instr.WellFormed, Instr.wellFormed] using h
  simp [encode, Instr.opcode, operandCount, hl]
theorem syForecast (n : Word) : Statement (.syForecast n) := fun _ => rfl
theorem syWork (n : Word) : Statement (.syWork n) := fun _ => rfl
theorem syReset : Statement .syReset := fun _ => rfl
theorem rdreg (reg : Byte) : Statement (.rdreg reg) := fun _ => rfl
theorem rdtab (tab : Byte) (idx : BitVec 16) : Statement (.rdtab tab idx) := fun _ => rfl

end Sys2Proof.Laws.EncodeLength
end

