-- ==== Sys2Proof/Laws/Reset.lean ====
section
/-! SUPPORT. What power-on reset does to the buffers of the command it abandons (70_reset_and_hazards.md R262). -/

namespace Sys2Proof.Machine

open Sys2Proof

variable (s : State)

theorem writtenCount_le (emits : Nat) : writtenCount emits s ≤ emits := Nat.min_le_right _ _

@[simp] theorem writtenCount_zero : writtenCount 0 s = 0 := Nat.min_zero _

/-- A command that emits as much as its output buffer holds, or less, leaves the buffer's length. -/
theorem length_abandonedOutput {α : Type} {free : Nat → α} {written : Nat} {b : Buffers α}
    (h : written ≤ b.output.length) : (abandonedOutput free written b).length = b.output.length := by
  rw [abandonedOutput, length_overlay, length_emitInto (by simpa using h)]

/-- Element j of an abandoned output buffer: free if the command had written it or the host did, else unchanged. -/
theorem getElem?_abandonedOutput {α : Type} {free : Nat → α} {written : Nat} {b : Buffers α}
    (h : written ≤ b.output.length) (j : Nat) : (abandonedOutput free written b)[j]? =
      (b.output[j]?).map fun x => if j < written ∨ j ∈ b.hostWrites then free j else x := by
  rw [abandonedOutput, getElem?_overlay, getElem?_emitInto]
  by_cases hj : j < written
  · have : j < b.output.length := by omega
    simp [hj, this]
  · simp [hj]

/-- A command that emits something has room for it. -/
theorem emitCount_le_output (n : Word) : emitCount (.frWork n) s ≤ (handedFr s).output.length ∧
    emitCount (.syWork n) s ≤ (handedSy s).output.length := by
  constructor
  · simp only [emitCount, frWorkCheck]
    split <;> split at * <;> simp_all
    repeat' split at *
    all_goals simp_all
  · simp only [emitCount, syWorkCheck]
    split <;> split at * <;> simp_all
    repeat' split at *
    all_goals simp_all

/-- A command that is no work command hands no buffers back. -/
theorem abandonBuffers_of_ne {op : Opcode} (emits : Nat) (h₁ : op ≠ .frWork) (h₂ : op ≠ .syWork) :
    abandonBuffers op emits s = s := by
  cases op <;> simp_all [abandonBuffers]

@[simp] theorem abandonBuffers_port (op : Opcode) (emits : Nat) : (abandonBuffers op emits s).port = s.port := by
  cases op <;> rfl
@[simp] theorem abandonBuffers_responses (op : Opcode) (emits : Nat) :
    (abandonBuffers op emits s).responses = s.responses := by cases op <;> rfl

@[simp] theorem abandonCommand_responses : (abandonCommand s).responses = s.responses := by
  unfold abandonCommand; split <;> simp
@[simp] theorem powerOnReset_fr : (powerOnReset s).fr = FrUnit.reset := rfl
@[simp] theorem powerOnReset_sy : (powerOnReset s).sy = SyUnit.reset := rfl
@[simp] theorem powerOnReset_log : (powerOnReset s).log = [] := rfl
@[simp] theorem powerOnReset_resetPin : (powerOnReset s).resetPin = false := rfl
@[simp] theorem powerOnReset_responses : (powerOnReset s).responses = s.responses := abandonCommand_responses s

end Sys2Proof.Machine
end

