-- ==== Sys2Proof/Tests/Slice0.lean ====
section
/-! SUPPORT. Tests: words, values and faults the spec itself writes down (95_test_vectors.md and the rules cited), and for
every statement with hypotheses a witness that meets them. -/

namespace Sys2Proof.Tests

open Sys2Proof Sys2Proof.Machine

/-! ## Small states -/

/-- The test input `ts(n)` of 95_test_vectors.md. -/
def ts (n : Nat) : List Byte :=
  (List.range n).flatMap fun p => 0x47 :: (List.range 187).map fun i => BitVec.ofNat 8 (p * 187 + i + 1)

/-- A window of 1.0 everywhere. -/
def ones : List Word := List.replicate 1024 0x3F800000

/-- FR READY: SHORT 1/2, NM, no in-band field. -/
def frNm : State := { State.reset with fr := frConfigured 0x00000001 1 0 FrUnit.reset }

/-- FR READY: SHORT 1/2, HEM, no in-band field. -/
def frHe : State := { State.reset with fr := frConfigured 0x00000101 1 0 FrUnit.reset }

/-- FR READY: SHORT 1/2, NM, in-band Type B, two FEC blocks a group, 50000000 bit/s. -/
def frIn : State := { State.reset with fr := frConfigured 0x00001001 2 50000000 FrUnit.reset }

/-- FR FAULTED with code UNCONFIGURED. -/
def frBad : State := { State.reset with fr := { FrUnit.reset with status := 0x00000602 } }

/-- SY READY: 2K, 1/8, NORMAL carriers, one data symbol. -/
def syOk : State := { State.reset with sy := syConfigured 0x00000200 1 ones SyUnit.reset }

/-- SY FAULTED with code UNCONFIGURED. -/
def syBad : State := { State.reset with sy := { SyUnit.reset with status := 0x00000602 } }

/-- The state with the buffers of one FR_WORK: `cap` output elements 0xEE. -/
def withFr (input : List Byte) (cap : Nat) (s : State) : State := handFr ⟨input, List.replicate cap 0xEE, []⟩ s

/-- The state with the buffers of one SY_WORK: n input samples (1.0, -2.0), `cap` output elements 0. -/
def withSy (n cap : Nat) (s : State) : State :=
  handSy ⟨List.replicate n ⟨0x3F800000, 0xC0000000⟩, List.replicate cap ⟨0, 0⟩, []⟩ s

/-- A check of the state an outcome leads to; a stop fails it. -/
def after (o : Answer) (check : State → Bool) : Bool :=
  match o with
  | .next t => check t
  | .fault _ | .refused _ => false

/-- Bits read 8 at a time MSB-first, as 95_test_vectors.md writes them. -/
def hexOf (bits : List Bool) : Nat := bits.foldl (fun n x => 2 * n + x.toNat) 0

/-! ## Well-formedness and decoding -/

theorem test_wellFormed_refuses_short_window : (Instr.syConfig 0 0 (List.replicate 1023 0)).wellFormed = false := by
  decide +kernel

theorem test_wellFormed_accepts_full_window : (Instr.syConfig 0 0 ones).wellFormed = true := by decide +kernel

theorem test_decode_nop : decode [0x00000000] = .instr .nop [] := by decide

/-- 95_test_vectors.md P2. -/
theorem test_decode_fr : decode [0x01000000, 0x00001001, 0x00000002, 0x02FAF080, 0x02000000, 0x000036F0] =
    .instr (.frConfig 0x1001 2 50000000) [0x02000000, 0x000036F0] ∧
    decode [0x02000000, 0x000036F0] = .instr (.frForecast 14064) [] ∧
    decode [0x03000000, 0x000036F0] = .instr (.frWork 14064) [] ∧ decode [0x04000000] = .instr .frReset [] := by
  decide

/-- 95_test_vectors.md P5. -/
theorem test_decode_sy : decode (0x11000000 :: 0x00000200 :: 0x00000001 :: ones ++ [0x12000000]) =
    .instr (.syConfig 0x200 1 ones) [0x12000000] ∧
    decode [0x12000000, 0x00005900] = .instr (.syForecast 22784) [] ∧
    decode [0x13000000, 0x0000B200] = .instr (.syWork 45568) [] ∧ decode [0x14000000] = .instr .syReset [] := by
  decide +kernel

/-- 30_encoding.md R84: RDREG's number in IMM24 7:0, RDTAB's table in 23:16 and index in 15:0. -/
theorem test_decode_control : decode [0x20000019] = .instr (.rdreg 0x19) [] ∧
    decode [0x210203FF] = .instr (.rdtab 2 1023) [] := by decide

/-- 95_test_vectors.md section 4. -/
theorem test_decode_rejects : decode [0x05000000] = .illegal 0x05 [] ∧ decode [0xFF000000] = .illegal 0xFF [] ∧
    decode [0x00000001] = .reserved .nop [] ∧ decode [0x20000100] = .reserved .rdreg [] ∧
    decode [0x03000001, 0x00001B78] = .reserved .frWork [] ∧ decode [0x01000000, 0, 0] = .wait := by decide

/-- 30_encoding.md R83: the rows of the opcode table. -/
theorem test_decodeTableWord : decodeTableWord 32 0x00000000 = some .nop ∧
    decodeTableWord 32 0x01000000 = some (.frConfig 0 0 0) ∧ decodeTableWord 32 0x02000000 = some (.frForecast 0) ∧
    decodeTableWord 32 0x03000000 = some (.frWork 0) ∧ decodeTableWord 32 0x04000000 = some .frReset ∧
    decodeTableWord 32 0x11000000 = some (.syConfig 0 0 (List.replicate 1024 0)) ∧
    decodeTableWord 32 0x12000000 = some (.syForecast 0) ∧ decodeTableWord 32 0x13000000 = some (.syWork 0) ∧
    decodeTableWord 32 0x14000000 = some .syReset ∧ decodeTableWord 32 0x20000020 = some (.rdreg 0x20) ∧
    decodeTableWord 32 0x210300FF = some (.rdtab 3 255) ∧ decodeTableWord 32 0x05000000 = none := by decide +kernel

/-- 95_test_vectors.md P2 and P5: assembler lines and the words they stand for. -/
theorem test_assemble :
    assemble [] (.frConfig .short .r12 .nm .typeb 2 50000000) = some (.frConfig 0x1001 2 50000000) ∧
    assemble [("win", ones)] (.syConfig .normal .k2 .g1of8 1 "win") = some (.syConfig 0x200 1 ones) ∧
    assemble [] (.rdreg "SY_SCALE") = some (.rdreg 0x19) ∧
    asmText (.frConfig .short .r12 .nm .typeb 2 50000000) = "fr.config short, 1/2, nm, typeb, 2, 50000000" := by
  decide +kernel

/-! ## Checksums, headers and payload -/

/-- 95_test_vectors.md 2.1 and 2.2. -/
theorem test_crc : crc8Entry 0xD7 = 0x74 ∧ crc8Entry 0x77 = 0x3F ∧
    crc8Bytes [0x31, 0x32, 0x33, 0x34, 0x35, 0x36, 0x37, 0x38, 0x39] = 0xBC ∧
    headerCrcRegister (([0x31, 0x32, 0x33, 0x34, 0x35, 0x36, 0x37, 0x38, 0x39] : List Byte).flatMap
      fun b => bitsMSB b) = 0x3D ∧ crc8Bytes (((ts 1).drop 1).take 187) = 0x5A := by decide +kernel

/-- 95_test_vectors.md 2.3: count 68 of NORMAL 1/2 NM; count 94 with in-band field; count 100 in HEM. -/
theorem test_headers :
    hexOf (frameHeader { (frConfigured 0x0000 1 0 FrUnit.reset) with count := 68 }) = 0xF00005E07D804703C02B ∧
    hexOf (frameHeader { frIn.fr with count := 94 }) = 0xF00005E01AC04702F08C ∧
    hexOf (frameHeader { (frConfigured 0x0150 1 0 FrUnit.reset) with count := 100 }) = 0xF00005E0D2004702C016 := by
  decide +kernel

/-- 95_test_vectors.md 2.4. -/
theorem test_inband_field : hexOf (inbandField 50000000) = 0x40000000000000000BEBC20000 ∧
    hexOf (inbandField 0x07FFFFFF) = 0x40000000000000001FFFFFFC00 := by decide +kernel

/-- 95_test_vectors.md 2.5. -/
theorem test_payload_steps :
    (payloadRun frNm.fr 3 [0x47, 0x01, 0x02]).bytes = [0x00, 0x01, 0x02] ∧
    (payloadRun frNm.fr 3 [0x47, 0x01, 0x02]).unit.crc = 0x74 ∧
    (payloadRun frHe.fr 1 [0x12, 0x01]).bytes = [0x01] ∧
    (payloadRun frHe.fr 1 [0x12, 0x01]).events = [.syncError 0 0x12] := by decide

/-- 95_test_vectors.md 2.6: forecasts, and the need of one HEM frame and of two NM frames with one in-band field. -/
theorem test_forecast_and_need : frForecast false 80 = 0 ∧ frForecast false 81 = 1 ∧ frForecast true 80 = 188 ∧
    frForecast true 376880 = 47288 ∧ need frHe.fr 7032 = 874 ∧ need frIn.fr 14064 = 1725 := by decide +kernel

/-! ## Numbers -/

/-- 95_test_vectors.md 3.2. -/
theorem test_scale_constants : scaleConstant 853 = 0x3D06F341 ∧ scaleConstant 1705 = 0x3CBEE785 ∧
    scaleConstant 3409 = 0x3C870273 ∧ scaleConstant 6817 = 0x3C3EF246 ∧ scaleConstant 6913 = 0x3C3D9DAD ∧
    scaleConstant 13633 = 0x3C070641 ∧ scaleConstant 13921 = 0x3C059ED4 ∧ scaleConstant 27265 = 0x3BBEF4F6 ∧
    scaleConstant 27841 = 0x3BBCF8A1 := by decide +kernel

/-- 95_test_vectors.md 3.3. -/
theorem test_scaling : mul32 0x40490FDB 0x3CBEE785 = 0x3D95EF9A ∧ mul32 0x80000000 0x3CBEE785 = 0x80000000 ∧
    mul32 0xFF800000 0x3CBEE785 = 0xFF800000 ∧ mul32 0x7F7FFFFF 0x3CBEE785 = 0x7CBEE784 ∧
    mul32 0x00800000 0x3CBEE785 = 0x0002FB9E ∧ mul32 0x00000001 0x3CBEE785 = 0x00000000 := by decide +kernel

/-- 95_test_vectors.md 3.1: 32K, GI 19/128; and the size limit below it. -/
theorem test_derived_sizes : guardInterval 0x0550 = 4864 ∧ frameItemsOf 0x0550 1 = 75264 ∧
    insertionItemsOf 0x0550 114129 = 4294942208 ∧ insertionItemsOf 0x0550 114130 = 4294979840 := by decide +kernel

/-! ## Steps -/

/-- 95_test_vectors.md section 4. -/
theorem test_step_nop : step (State.reset.withFetchWord 32 0) = .next { State.reset with responses := [.ok []] } := rfl

/-- 95_test_vectors.md section 4. -/
theorem test_step_rdreg : after (exec (.rdreg 0x20) State.reset) (fun t => t.responses == [.ok [0]]) = true ∧
    after (exec (.rdreg 0x0B) State.reset)
      (fun t => t.responses == [.fault .badOperand] && t.fr == FrUnit.reset) = true := by decide +kernel

/-- 95_test_vectors.md section 4. -/
theorem test_step_rdtab : after (exec (.rdtab 0 255) State.reset) (fun t => t.responses == [.ok [0xF9]]) = true ∧
    after (exec (.rdtab 0 256) State.reset) (fun t => t.responses == [.fault .badOperand]) = true := by decide +kernel

/-- 95_test_vectors.md P6, line 5: the log stays. -/
theorem test_step_frReset : after (exec .frReset { frBad with log := [.syncError 188 0] })
    (fun t => t.fr == FrUnit.reset && t.log == [.syncError 188 0]) = true := by decide +kernel

/-- 95_test_vectors.md section 4. -/
theorem test_step_syReset : after (exec .syReset syBad) (fun t => t.sy.status == 0 && t.responses == [.ok []]) = true := by
  decide +kernel

/-- 95_test_vectors.md P1, line 1, and 2.8: the largest legal tsRate, in-band signalling with fecBlockCount 0. -/
theorem test_step_frConfig :
    after (exec (.frConfig 0 1 0x07FFFFFF) State.reset) (fun t => t.responses == [.ok [32208]] && t.fr.status == 1) = true ∧
    after (exec (.frConfig 0x1000 0 0) State.reset)
      (fun t => t.responses == [.fault .configError] && t.fr.status == 0x00000402) = true := by decide +kernel

/-- 95_test_vectors.md 2.6. -/
theorem test_step_frForecast : after (exec (.frForecast 7032) frHe) (fun t => t.responses == [.ok [1057]]) = true := by
  decide +kernel

/-- 95_test_vectors.md P3: consumed, counter, the first payload bytes, the last one, an element the frame leaves alone. -/
theorem test_step_frWork_hem : after (exec (.frWork 7032) (withFr (ts 6) 7033 frHe)) (fun t =>
    t.responses == [.ok [874, 7032]] && t.fr.count == 122 && t.fr.inPos == 874 &&
      (t.frReturned.map fun b => (hexOf ((b.output.take 104).map (· == 1)), hexOf (((b.output.drop 7024).take 8).map (· == 1)),
        b.output.drop 7032)) == [(0xF00005E01B28470000EB010203, 0x65, [0xEE])]) = true := by decide +kernel

/-- 95_test_vectors.md P4: the bad sync byte is replaced by the checksum and reported. -/
theorem test_step_frWork_syncError : after (exec (.frWork 7032) (withFr ((ts 5).set 188 0) 7032 frNm)) (fun t =>
    t.fr.status == 5 && t.fr.crc == 0x19 && t.log == [.syncError 188 0] &&
      (t.frReturned.map fun b => hexOf (((b.output.drop 1568).take 32).map (· == 1))) == [0xBABB5ABC]) = true := by
  decide +kernel

/-- 95_test_vectors.md P6, line 1. -/
theorem test_fault_record : after (exec (.frWork 7032) State.reset) (fun t => t.fr.status == 0x00000602 &&
    t.log == [.fault (some .fr) .unconfigured 0x03] && t.responses == [.fault .unconfigured]) = true := by decide +kernel

/-- 95_test_vectors.md P6, line 2: the first FAULTCODE stays. -/
theorem test_first_fault_code_stays : after (exec (.frConfig 1 1 0) frBad) (fun t => t.fr.status == 0x00000602 &&
    t.responses == [.fault .unitFaulted]) = true := by decide +kernel

/-- 95_test_vectors.md 2.8: the checks of FR_WORK. -/
theorem test_frWork_faults : after (exec (.frWork 100) frNm) (fun t => t.responses == [.fault .badSize]) = true ∧
    after (exec (.frWork 7032) (withFr (ts 5) 7031 frNm)) (fun t => t.responses == [.fault .outputOverflow]) = true ∧
    after (exec (.frWork 7032) (withFr ((ts 5).take 868) 7032 frNm))
      (fun t => t.responses == [.fault .inputUnderrun]) = true := by decide +kernel

/-- 70_reset_and_hazards.md R262: a command that power-on reset cuts off gives no response; one that would have faulted has
written nothing (40_framer.md R126). -/
theorem test_reset_abandons_frWork : after (step { withFr [] 1 (sendWords [0x03000000, 0x00001B78] frNm) with
    resetPin := true, log := [.syncError 188 0] }) (fun t => t.fr == FrUnit.reset && t.log == [] && t.responses == [] &&
      t.port == [] && t.frBufs == []) = true ∧
    emitCount (.frWork 7032) (withFr ((ts 5).take 868) 7032 frNm) = 0 ∧
    emitCount (.frWork 7032) (withFr (ts 5) 7033 frNm) = 7032 := by decide +kernel

/-- 95_test_vectors.md P5, line 1. -/
theorem test_step_syConfig : after (exec (.syConfig 0x200 1 ones) State.reset) (fun t => t.responses == [.ok [22784]] &&
    t.sy.scale == 0x3CBEE785 && t.sy.frameItems == 20736 && t.sy.gi == 256) = true := by decide +kernel

/-- 95_test_vectors.md 3.6: the checks of SY_CONFIG. -/
theorem test_syConfig_faults :
    after (exec (.syConfig 0x008 0 ones) State.reset) (fun t => t.responses == [.fault .badOperand]) = true ∧
    after (exec (.syConfig 0x070 0 ones) State.reset) (fun t => t.responses == [.fault .configError]) = true ∧
    after (exec (.syConfig 0x200 0 (ones.set 5 0x7FC00000)) State.reset)
      (fun t => t.responses == [.fault .configError]) = true := by decide +kernel

/-- 95_test_vectors.md 3.4. -/
theorem test_step_syForecast : after (exec (.syForecast 22783) syOk) (fun t => t.responses == [.ok [0]]) = true ∧
    after (exec (.syForecast 45568) syOk) (fun t => t.responses == [.ok [41472]]) = true := by decide +kernel

/-- 95_test_vectors.md 3.6: the checks of SY_WORK, and SY_WORK 0. -/
theorem test_syWork_checks : after (exec (.syWork 22783) syOk) (fun t => t.responses == [.fault .badSize]) = true ∧
    after (exec (.syWork 22784) (withSy 0 22784 syOk)) (fun t => t.responses == [.fault .inputUnderrun]) = true ∧
    after (exec (.syWork 0) syOk) (fun t => t.responses == [.ok [0, 0]]) = true := by decide +kernel

/-! ## Witnesses: every hypothesis of every statement is met

Each theorem is named after its statement. A statement with several clauses has one conjunct for each clause. -/

theorem legal_fr_reset : FrUnit.reset.Legal :=
  ⟨by decide, ⟨by decide, by decide⟩, by decide, by decide, by decide, by decide, by decide, by decide, by decide⟩

theorem legal_frNm : frNm.fr.Legal :=
  ⟨by decide, ⟨by decide, by decide⟩, by decide, by decide, by decide, by decide, by decide, by decide, by decide⟩

theorem legal_frHe : frHe.fr.Legal :=
  ⟨by decide, ⟨by decide, by decide⟩, by decide, by decide, by decide, by decide, by decide, by decide, by decide⟩

theorem legal_frIn : frIn.fr.Legal :=
  ⟨by decide, ⟨by decide, by decide⟩, by decide, by decide, by decide, by decide, by decide, by decide, by decide⟩

theorem length_ones : ones.length = 1024 := List.length_replicate

theorem legal_sy_reset : SyUnit.reset.Legal :=
  ⟨by decide, ⟨by decide, by decide⟩, by decide, length_reset_win, length_reset_p1A, length_reset_p1Sh,
    fun h => absurd h (by decide), fun _ => rfl⟩

theorem legal_syOk : syOk.sy.Legal := by
  refine ⟨by decide, ⟨by decide, by decide⟩, by decide, length_ones, ?_, ?_, fun _ => ⟨by decide, by decide, by decide +kernel, by decide +kernel, ?_⟩,
    fun h => absurd h (by decide)⟩
  · simp only [syOk, syConfigured, storedWaveform, List.length_map, List.length_range]
  · simp only [syOk, syConfigured, storedWaveform, List.length_map, List.length_range]
  · simp only [syOk, syConfigured]

theorem ready_units : Ready frNm.fr.status ∧ Ready frHe.fr.status ∧ Ready frIn.fr.status ∧ Ready syOk.sy.status :=
  ⟨by constructor <;> decide, by constructor <;> decide, by constructor <;> decide, by constructor <;> decide⟩

theorem unconfigured_units : Unconfigured State.reset.fr.status ∧ Unconfigured State.reset.sy.status :=
  ⟨by constructor <;> decide, by constructor <;> decide⟩

theorem faulted_units : isFaulted frBad.fr.status = true ∧ isFaulted syBad.sy.status = true := by decide

theorem witness_DecodeOfEncode : Instr.nop.WellFormed ∧ (Instr.frConfig 1 1 0).WellFormed ∧
    (Instr.syConfig 0x200 1 ones).WellFormed ∧ (Instr.rdreg 0xFF).WellFormed ∧ (Instr.rdtab 0xFF 0xFFFF).WellFormed := by
  decide +kernel

theorem witness_EncodeOfDecode : decode [0x03000000, 0x00001B78, 0x00000000] = .instr (.frWork 7032) [0x00000000] := by
  decide

theorem witness_OpcodeGivesLength : opcodeOf (opcField 0x01ABCDEF) = some .frConfig ∧
    ([0, 0] : List Word).length < operandCount .frConfig ∧ operandCount .frConfig ≤ ([0, 0, 0] : List Word).length := by
  decide

theorem witness_StepRunsDecodedCommand : ∃ (s : State) (i : Instr) (rest : List Word), s.resetPin = false ∧
    decode s.port = .instr i rest :=
  ⟨State.reset.withFetchWord 32 0x04000000, .frReset, [], rfl, by decide⟩

theorem witness_StepWaitsForWords : State.reset.resetPin = false := rfl

theorem witness_IllegalOpcodeFaults : (State.reset.withFetchWord 32 0x05000000).resetPin = false ∧
    (State.reset.withFetchWord 32 0x05000000).port = 0x05000000 :: [] ∧
    opcodeOf (opcField 0x05000000) = none ∧ opcodeOf 0x10 = none ∧ opcodeOf 0x15 = none ∧ opcodeOf 0x1F = none ∧
    opcodeOf 0x22 = none ∧ opcodeOf 0xFF = none := by decide

theorem witness_ReservedBitsFault :
    (∃ (s : State) (w : Word) (ws : List Word) (op : Opcode), s.resetPin = false ∧ s.port = w :: ws ∧
      opcodeOf (opcField w) = some op ∧ operandCount op ≤ ws.length ∧ imm24Field w &&& mustBeZero op ≠ 0 ∧
      op ≠ .frWork ∧ op ≠ .syWork) ∧
    (sendWords [0x03000001, 0x00001B78] State.reset).resetPin = false ∧ opcodeOf (opcField 0x03000001) = some .frWork ∧
    imm24Field 0x03000001 &&& mustBeZero .frWork ≠ 0 ∧ opcodeOf (opcField 0x13800000) = some .syWork ∧
    imm24Field 0x13800000 &&& mustBeZero .syWork ≠ 0 :=
  ⟨⟨sendWords [0x20000100] State.reset, 0x20000100, [], .rdreg, by decide⟩, by decide⟩

theorem witness_FaultChangesOnlyTheRecord :
    (∃ t, exec (.frWork 7032) State.reset = .next t ∧
      t.responses = State.reset.responses ++ [.fault .unconfigured]) ∧
    (∃ t, exec (.syWork 22784) State.reset = .next t ∧
      t.responses = State.reset.responses ++ [.fault .unconfigured]) ∧
    (∃ t, exec (.rdreg 0x0B) State.reset = .next t ∧ t.responses = State.reset.responses ++ [.fault .badOperand]) :=
  ⟨⟨_, rfl, rfl⟩, ⟨_, rfl, rfl⟩, ⟨_, rfl, rfl⟩⟩

theorem witness_FaultedUntilUnitReset :
    (∃ t, exec (.frForecast 0) frBad = .next t) ∧ (Instr.frForecast 0) ≠ .frReset ∧ isFaulted frBad.fr.status = true ∧
    (∃ t, exec (.syForecast 0) syBad = .next t) ∧ (Instr.syForecast 0) ≠ .syReset ∧ isFaulted syBad.sy.status = true :=
  ⟨⟨_, rfl⟩, by decide, by decide, ⟨_, rfl⟩, by decide, by decide⟩

theorem witness_LogOnlyGrows : (State.reset.withFetchWord 32 0x05000000).resetPin = false ∧
    ∃ t, step (State.reset.withFetchWord 32 0x05000000) = .next t := ⟨rfl, _, rfl⟩

theorem witness_UnitsAreIsolated :
    (∃ t, exec (.frConfig 1 1 0) State.reset = .next t) ∧ opcodeUnit (Instr.frConfig 1 1 0).opcode = some .fr ∧
    (∃ t, exec .syReset State.reset = .next t) ∧ opcodeUnit Instr.syReset.opcode = some .sy :=
  ⟨⟨_, rfl⟩, rfl, ⟨_, rfl⟩, rfl⟩

theorem witness_ConfigurationIsImmutable : (∃ t, exec (.rdreg 0x00) frNm = .next t) ∧
    (Instr.rdreg 0x00).opcode ≠ .frConfig ∧ (Instr.rdreg 0x00).opcode ≠ .frReset ∧ (Instr.rdreg 0x00).opcode ≠ .frWork ∧
    (Instr.rdreg 0x00).opcode ≠ .syConfig ∧ (Instr.rdreg 0x00).opcode ≠ .syReset :=
  ⟨⟨_, rfl⟩, by decide⟩

/-- A port of each kind; and commands that a reset cuts off where they would have faulted. -/
theorem witness_PowerOnResetAbandonsCommand :
    ({ sendWords [0x03000000, 0x00001B78] State.reset with resetPin := true } : State).resetPin = true ∧
    decode [0x03000000] = .wait ∧ decode [0x05000000] = .illegal 0x05 [] ∧
    decode [0x20000100] = .reserved .rdreg [] ∧ decode [0x03000001, 0x00001B78] = .reserved .frWork [] ∧
    decode [0x13000001, 0x00005900] = .reserved .syWork [] ∧ decode [0x04000000] = .instr .frReset [] ∧
    decode [0x03000000, 0x00001B78] = .instr (.frWork 7032) [] ∧
    decode [0x13000000, 0x00005900] = .instr (.syWork 22784) [] ∧
    exec (.frWork 7032) State.reset = .next (faultCommand .frWork .unconfigured State.reset) ∧
    exec (.syWork 22784) State.reset = .next (faultCommand .syWork .unconfigured State.reset) :=
  ⟨rfl, by decide, by decide, by decide, by decide, by decide, by decide, by decide, by decide, rfl, rfl⟩

theorem witness_StepKeepsLegal : frNm.Legal ∧ syOk.Legal ∧ ∃ t, step (sendWords [0x20000005] frNm) = .next t :=
  ⟨⟨legal_frNm, legal_sy_reset, fun _ he => nomatch he⟩, ⟨legal_fr_reset, legal_syOk, fun _ he => nomatch he⟩, _, rfl⟩

theorem witness_NopChangesNothing : (sendWords [0x00FFFFFF] State.reset).resetPin = false ∧
    (sendWords [0x00FFFFFF] State.reset).port = commandWord .nop 0xFFFFFF :: [] ∧ (0xFFFFFF : BitVec 24) ≠ 0 ∧
    (sendWords [0x00000000] State.reset).port = 0x00000000 :: [] := by decide

/-- The numbers where the ranges of readable and reserved registers meet. -/
theorem witness_RdregReadsRegister : (sendWords [0x20000019, 0] State.reset).resetPin = false ∧
    (sendWords [0x20000019, 0] State.reset).port = commandWord .rdreg ((0 : BitVec 16) ++ (0x19 : Byte)) :: [0] ∧
    (sendWords [0x20000119] State.reset).port = commandWord .rdreg ((1 : BitVec 16) ++ (0x19 : Byte)) :: [] ∧
    readReg State.reset 0x0A = some 0 ∧ readReg State.reset 0x0B = none ∧
    readReg State.reset 0x0F = none ∧ readReg State.reset 0x10 = some 0 ∧ readReg State.reset 0x19 = some 0 ∧
    readReg State.reset 0x1A = none ∧ readReg State.reset 0x1F = none ∧ readReg State.reset 0x20 = some 0 ∧
    readReg State.reset 0x21 = none ∧ readReg State.reset 0xFF = none := by decide

/-- The last index of each table and the first out of range. -/
theorem witness_RdtabReadsEntry : (sendWords [0x210203FF] State.reset).resetPin = false ∧
    (sendWords [0x210203FF] State.reset).port = commandWord .rdtab ((2 : Byte) ++ (0x3FF : BitVec 16)) :: [] ∧
    State.reset.sy.p1A[1023]? = some ⟨0, 0⟩ ∧ State.reset.sy.p1Sh[1023]? = some ⟨0, 0⟩ ∧
    State.reset.sy.win[1023]? = some 0 ∧ readTab State.reset 0 255 = some [0xF9] ∧ readTab State.reset 0 256 = none ∧
    readTab State.reset 3 1023 = some [0] ∧ readTab State.reset 1 1024 = none ∧ readTab State.reset 4 0 = none := by
  decide +kernel

theorem witness_FrResetRestoresReset : (sendWords [0x04000000] State.reset).resetPin = false ∧
    (sendWords [0x04000000] State.reset).port = commandWord .frReset 0 :: [] ∧
    (sendWords [0x04800000] State.reset).port = commandWord .frReset 0x800000 :: [] := by decide

theorem witness_SyResetRestoresReset : (sendWords [0x14000000] State.reset).resetPin = false ∧
    (sendWords [0x14000000] State.reset).port = commandWord .syReset 0 :: [] ∧
    (sendWords [0x14000001] State.reset).port = commandWord .syReset 1 :: [] := by decide

theorem witness_FrConfigConfigures : Unconfigured State.reset.fr.status ∧ (0x1001 : Word) &&& 0xFFFFEE8E = 0 ∧
    ((0x1001 : Word).getLsbD 12 = true → (2 : Word) ≠ 0) ∧ (0x07FFFFFF : Word).toNat < 2 ^ 27 :=
  ⟨unconfigured_units.1, by decide⟩

theorem witness_FrConfigFaultOrder : isFaulted frBad.fr.status = true ∧ Ready frNm.fr.status ∧
    Unconfigured State.reset.fr.status ∧ (0x0002 : Word) &&& 0xFFFFEE8E ≠ 0 ∧ (0x1000 : Word) &&& 0xFFFFEE8E = 0 ∧
    (0x1000 : Word).getLsbD 12 = true ∧ 2 ^ 27 ≤ (0x08000000 : Word).toNat :=
  ⟨faulted_units.1, ready_units.1, unconfigured_units.1, by decide⟩

theorem witness_FrForecastAnswers : Ready frHe.fr.status ∧ isFaulted frBad.fr.status = true ∧
    Unconfigured State.reset.fr.status := ⟨ready_units.2.1, faulted_units.1, unconfigured_units.1⟩

theorem witness_FrWorkPacksFrames : frNm.fr.Legal ∧ Ready frNm.fr.status ∧ (7032 : Word).toNat % frNm.fr.kbch.toNat = 0 ∧
    (7032 : Word).toNat ≤ (handedFr (withFr (ts 5) 7032 frNm)).output.length ∧
    need frNm.fr (7032 : Word).toNat ≤ (handedFr (withFr (ts 5) 7032 frNm)).input.length :=
  ⟨legal_frNm, ready_units.1, by decide +kernel⟩

/-- The buffers one element short, and 7032 bits of a frame. -/
theorem witness_FrWorkFaultOrder : isFaulted frBad.fr.status = true ∧ Unconfigured State.reset.fr.status ∧
    Ready frNm.fr.status ∧ (7031 : Word).toNat % frNm.fr.kbch.toNat ≠ 0 ∧ (7032 : Word).toNat % frNm.fr.kbch.toNat = 0 ∧
    (handedFr (withFr (ts 5) 7031 frNm)).output.length < (7032 : Word).toNat ∧
    (7032 : Word).toNat ≤ (handedFr (withFr ((ts 5).take 868) 7032 frNm)).output.length ∧
    (handedFr (withFr ((ts 5).take 868) 7032 frNm)).input.length < need frNm.fr (7032 : Word).toNat :=
  ⟨faulted_units.1, unconfigured_units.1, ready_units.1, by decide +kernel⟩

theorem witness_FrWorkSplitsIntoCommands : frIn.fr.Legal ∧ Ready frIn.fr.status ∧
    (7032 : Word).toNat + (7032 : Word).toNat < 2 ^ 32 ∧ (7032 : Word).toNat % frIn.fr.kbch.toNat = 0 ∧
    (List.replicate 7032 (0xEE : Byte)).length = (7032 : Word).toNat ∧ need frIn.fr 14064 ≤ (ts 10).length :=
  ⟨legal_frIn, ready_units.2.2.1, by decide +kernel⟩

theorem witness_FrWorkIgnoresUnreadInput : ∃ (n : Word) (s t : State) (taken rest output : List Byte), s.fr.Legal ∧
    taken.length = need s.fr n.toNat ∧ exec (.frWork n) { s with frBufs := [⟨taken ++ rest, output, []⟩] } = .next t ∧
    t.responses = s.responses ++ [.ok [BitVec.ofNat 32 (need s.fr n.toNat), n]] :=
  ⟨0, frNm, _, [], [0x47], [], legal_frNm, by decide, rfl, by decide⟩

/-- With the in-band field and without it. -/
theorem witness_FrameLayout : frIn.fr.Legal ∧ Ready frIn.fr.status ∧ need frIn.fr frIn.fr.kbch.toNat ≤ (ts 5).length ∧
    framePadding frIn.fr = 104 ∧ frHe.fr.Legal ∧ Ready frHe.fr.status ∧
    need frHe.fr frHe.fr.kbch.toNat ≤ (ts 5).length ∧ framePadding frHe.fr = 0 :=
  ⟨legal_frIn, ready_units.2.2.1, by decide +kernel, by decide, legal_frHe, ready_units.2.1, by decide +kernel, by decide⟩

theorem witness_HeaderFieldsFit : frIn.fr.Legal ∧ Ready frIn.fr.status := ⟨legal_frIn, ready_units.2.2.1⟩

theorem witness_PayloadByteRule : frNm.fr.count = 0 ∧ frNm.fr.cfg.getLsbD 8 = false ∧ frHe.fr.count = 0 ∧
    frHe.fr.cfg.getLsbD 8 = true ∧ ({ frHe.fr with count := 187 } : FrUnit).count ≠ 0 ∧ (0x46 : Byte) ≠ 0x47 := by decide

/-- The slots 187, 188 and 376 from counter 0. -/
theorem witness_NormalModePayload : frNm.fr.cfg.getLsbD 8 = false ∧ frNm.fr.count.toNat < 188 ∧
    377 ≤ (ts 5).length ∧ (frNm.fr.count.toNat + 187) % 188 ≠ 0 ∧ (frNm.fr.count.toNat + 188) % 188 = 0 ∧
    (frNm.fr.count.toNat + 0) % 188 = 0 := by decide +kernel

theorem witness_HighEfficiencyPayload : frHe.fr.cfg.getLsbD 8 = true ∧ frHe.fr.count.toNat < 188 ∧
    (needSlots true 869 frHe.fr.count.toNat).1 ≤ (ts 5).length := by decide +kernel

theorem witness_PayloadCountsAndReports : ({ frHe.fr with count := 187 } : FrUnit).count.toNat < 188 ∧
    (needSlots true 2 187).1 ≤ ([0x5F, 0x12, 0x01] : List Byte).length ∧
    (needSlots false 3 187).1 ≤ ([0x5F, 0x12, 0x01] : List Byte).length := by decide

theorem witness_FecBlockCycles : frIn.fr.Legal ∧ Ready frIn.fr.status ∧ frIn.fr.cfg.getLsbD 12 = true ∧ frNm.fr.Legal ∧
    Ready frNm.fr.status ∧ frNm.fr.cfg.getLsbD 12 = false :=
  ⟨legal_frIn, ready_units.2.2.1, by decide, legal_frNm, ready_units.1, by decide⟩

theorem witness_BytesNeededPerFrame : 0 < 188 ∧ 187 < 188 ∧ needSlots true 869 0 = (874, 122) := by decide +kernel

theorem witness_NormalModeForecastSurplus : frIn.fr.Legal ∧ Ready frIn.fr.status ∧ frIn.fr.cfg.getLsbD 8 = false ∧
    1 ≤ 2 := ⟨legal_frIn, ready_units.2.2.1, by decide⟩

/-- Every row of the statement's table is the kbch of some configuration it speaks of. -/
theorem witness_HighEfficiencyForecast : frHe.fr.Legal ∧ Ready frHe.fr.status ∧ frHe.fr.cfg.getLsbD 8 = true ∧
    ([0x100, 0x110, 0x120, 0x130, 0x140, 0x150, 0x170].map fun w => (frConfigured w 1 0 FrUnit.reset).kbch.toNat) =
      [32208, 38688, 43040, 48408, 51648, 53840, 25728] ∧
    ([0x160, 0x101, 0x111, 0x121, 0x131, 0x141, 0x151, 0x161, 0x171].map
      fun w => (frConfigured w 1 0 FrUnit.reset).kbch.toNat) =
      [21408, 7032, 9552, 10632, 11712, 12432, 13152, 5232, 6312] ∧
    (frConfigured 0x100 1 0 FrUnit.reset).count = 0 ∧ (frConfigured 0x100 1 0 FrUnit.reset).cfg.getLsbD 12 = false :=
  ⟨legal_frHe, ready_units.2.1, by decide⟩

theorem witness_DerivedParameterTables : (6 : BitVec 3) ≠ 7 := by decide

theorem witness_SyConfigConfigures : Unconfigured State.reset.sy.status ∧ (0x200 : Word) &&& 0xFFFFF88E = 0 ∧
    (0x200 : Word).extractLsb' 4 3 ≠ 7 ∧ (0x200 : Word).extractLsb' 8 3 ≠ 7 ∧
    (∀ x ∈ ones, x.extractLsb' 23 8 ≠ 0xFF) ∧ insertionItemsOf 0x200 1 < 2 ^ 32 :=
  ⟨unconfigured_units.2, by decide, by decide, by decide,
    fun x hx => by rw [List.eq_of_mem_replicate hx]; decide, by decide +kernel⟩

/-- FFTCODE 7, GICODE 7, a NaN in the window, and the first size that is too large. -/
theorem witness_SyConfigFaultOrder : isFaulted syBad.sy.status = true ∧ Ready syOk.sy.status ∧
    Unconfigured State.reset.sy.status ∧ (0x008 : Word) &&& 0xFFFFF88E ≠ 0 ∧ (0x070 : Word) &&& 0xFFFFF88E = 0 ∧
    (0x070 : Word).extractLsb' 4 3 = 7 ∧ (0x700 : Word).extractLsb' 8 3 = 7 ∧
    (0x7FC00000 : Word).extractLsb' 23 8 = 0xFF ∧ 2 ^ 32 ≤ insertionItemsOf 0x550 114130 :=
  ⟨faulted_units.2, ready_units.2.2.2, unconfigured_units.2, by decide +kernel⟩

/-- Two configurations that differ in carrier mode, guard interval and numDataSymbols. -/
theorem witness_WaveformsDependOnlyOnFftAndWindow :
    (∃ t r, exec (.syConfig 0x210 1 []) State.reset = .next t ∧ t.responses = State.reset.responses ++ [.ok [r]]) ∧
    (∃ t r, exec (.syConfig 0x011 2 []) State.reset = .next t ∧ t.responses = State.reset.responses ++ [.ok [r]]) ∧
    (0x210 : Word).extractLsb' 4 3 = (0x011 : Word).extractLsb' 4 3 := by
  refine ⟨⟨_, _, rfl, rfl⟩, ⟨_, _, rfl, rfl⟩, by decide⟩

theorem witness_SyForecastAnswers : syOk.sy.Legal ∧ Ready syOk.sy.status ∧ isFaulted syBad.sy.status = true ∧
    Unconfigured State.reset.sy.status := ⟨legal_syOk, ready_units.2.2.2, faulted_units.2, unconfigured_units.2⟩

theorem witness_SyWorkEmitsChunks : syOk.sy.Legal ∧ Ready syOk.sy.status ∧
    (22784 : Word).toNat % syOk.sy.insertionItems.toNat = 0 ∧
    (22784 : Word).toNat ≤ (handedSy (withSy 20736 22784 syOk)).output.length ∧
    (22784 : Word).toNat / syOk.sy.insertionItems.toNat * syOk.sy.frameItems.toNat ≤
      (handedSy (withSy 20736 22784 syOk)).input.length := by
  refine ⟨legal_syOk, ready_units.2.2.2, by decide +kernel, ?_, ?_⟩
  · rw [show (handedSy (withSy 20736 22784 syOk)).output.length = 22784 from List.length_replicate]; decide
  · rw [show (handedSy (withSy 20736 22784 syOk)).input.length = 20736 from List.length_replicate]; decide +kernel

/-- The buffers one element short. -/
theorem witness_SyWorkFaultOrder : isFaulted syBad.sy.status = true ∧ Unconfigured State.reset.sy.status ∧
    Ready syOk.sy.status ∧ (22783 : Word).toNat % syOk.sy.insertionItems.toNat ≠ 0 ∧
    (22784 : Word).toNat % syOk.sy.insertionItems.toNat = 0 ∧
    (handedSy (withSy 20736 22783 syOk)).output.length < (22784 : Word).toNat ∧
    (22784 : Word).toNat ≤ (handedSy (withSy 20735 22784 syOk)).output.length ∧
    (handedSy (withSy 20735 22784 syOk)).input.length <
      (22784 : Word).toNat / syOk.sy.insertionItems.toNat * syOk.sy.frameItems.toNat := by
  refine ⟨faulted_units.2, unconfigured_units.2, ready_units.2.2.2, by decide +kernel, by decide +kernel, ?_, ?_, ?_⟩
  · rw [show (handedSy (withSy 20736 22783 syOk)).output.length = 22783 from List.length_replicate]; decide
  · rw [show (handedSy (withSy 20735 22784 syOk)).output.length = 22784 from List.length_replicate]; decide
  · rw [show (handedSy (withSy 20735 22784 syOk)).input.length = 20735 from List.length_replicate]; decide +kernel

theorem witness_ScaleIsNearest : (0 : BitVec 3) ≠ 7 ∧ (6 : BitVec 3) ≠ 7 := by decide

theorem witness_ScalingSpecialValues : (0x3CBEE785 : Word).msb = false ∧ isFiniteEncoding 0x3CBEE785 = true ∧
    significand 0x3CBEE785 ≠ 0 ∧ isNaN 0x7F800001 = true ∧ isNaN 0x7F800000 = false := by decide

/-- Finite operands with a subnormal product; a product with two nearest values, 0x3FC00001 and 0x3FC00002; and a product
at the bound, 18631 x 2^109 times 1801 x 2^-6, which is 2^128 - 2^103. -/
theorem witness_ScalingRoundsToNearestEven : isFiniteEncoding 0x00800000 = true ∧ isFiniteEncoding 0x3CBEE785 = true ∧
    isFiniteEncoding 0x00000000 = true ∧ |binary32Value 0x00800000 * binary32Value 0x3CBEE785| < 2 ^ 128 - 2 ^ 103 ∧
    mul32 0x3F800001 0x3FC00000 = 0x3FC00002 ∧
    binary32Value 0x3FC00002 - binary32Value 0x3F800001 * binary32Value 0x3FC00000 =
      binary32Value 0x3F800001 * binary32Value 0x3FC00000 - binary32Value 0x3FC00001 ∧
    isFiniteEncoding 0x7D118E00 = true ∧ isFiniteEncoding 0x41E12000 = true ∧
    2 ^ 128 - 2 ^ 103 ≤ |binary32Value 0x7D118E00 * binary32Value 0x41E12000| ∧
    mul32 0x7D118E00 0x41E12000 = 0x7F800000 := by
  refine ⟨by decide, by decide, by decide, by decide +kernel, by decide +kernel, by decide +kernel, by decide, by decide,
    by decide +kernel, by decide +kernel⟩

theorem witness_SpectrumShape : (14 : Fin 16).val = 2 * (7 : BitVec 3).toNat ∧ (∃ k, k ∈ carrierBins) ∧ 0 ∉ carrierBins ∧ 0 < 384 ∧ (∃ k, carrierBins[0]? = some k) ∧
    1023 < 1024 :=
  ⟨by decide, ⟨_, List.mem_map_of_mem (List.mem_finRange 0)⟩, by simp [carrierBins], by decide,
    ⟨_, List.getElem?_eq_getElem (by simp [carrierBins])⟩, by decide⟩

end Sys2Proof.Tests
end

section
/-! PROOFS of the scope statement UnitsAreIsolated (00_scope.md R2, 20_memory.md R72). Everything the state holds of one
unit, its registers and its buffers, is that unit's side of the state. A command of the other unit commutes with putting
any other side in its place (`exec_withSySide`, `exec_withFrSide`). That is independence; putting the side's own content in
its place gives that the command leaves it as it was. -/

namespace Sys2Proof.Machine

open Sys2Proof

/-! ## Changing the state after a command -/

/-- What a command leads to, followed by a change of the state. -/
def mapNext (f : State → State) : Answer → Answer
  | .next t => .next (f t)
  | .fault r => .fault r
  | .refused r => .refused r

/-- A command that commutes with `f` from a state `f` leaves as it is leads to another such state. -/
theorem fixed_of_exec_commutes {f : State → State} {i : Instr} {s t : State}
    (hf : exec i (f s) = mapNext f (exec i s)) (hs : f s = s) (h : exec i s = .next t) : f t = t := by
  rw [hs, h] at hf
  exact (Host.Outcome.next.inj hf).symm

/-! ## Commands of unit FR and the side of unit SY -/

/-- What the state holds of unit SY: its registers and tables, and the buffers of its work commands. -/
structure SySide where
  unit : SyUnit
  bufs : List (Buffers Sample)
  returned : List (Buffers Sample)

def State.sySide (s : State) : SySide := ⟨s.sy, s.syBufs, s.syReturned⟩

/-- The state with another side of unit SY. -/
def State.withSySide (x : SySide) (s : State) : State :=
  { s with sy := x.unit, syBufs := x.bufs, syReturned := x.returned }

section SySide
variable (x : SySide) (s : State)

@[simp] theorem withSySide_fr : (s.withSySide x).fr = s.fr := rfl
@[simp] theorem handedFr_withSySide : handedFr (s.withSySide x) = handedFr s := rfl
@[simp] theorem sySide_withSySide : (s.withSySide x).sySide = x := rfl

theorem execFrConfig_withSySide (w1 w2 w3 : Word) :
    execFrConfig w1 w2 w3 (s.withSySide x) = mapNext (State.withSySide x) (execFrConfig w1 w2 w3 s) := by
  simp only [execFrConfig, withSySide_fr]
  split <;> rfl

theorem execFrForecast_withSySide (n : Word) :
    execFrForecast n (s.withSySide x) = mapNext (State.withSySide x) (execFrForecast n s) := by
  simp only [execFrForecast, withSySide_fr]
  split <;> rfl

theorem execFrWork_withSySide (n : Word) :
    execFrWork n (s.withSySide x) = mapNext (State.withSySide x) (execFrWork n s) := by
  simp only [execFrWork, withSySide_fr, handedFr_withSySide]
  split <;> rfl

/-- An FR command does the same whatever unit SY and its buffers hold. -/
theorem exec_withSySide {i : Instr} (hi : opcodeUnit i.opcode = some .fr) :
    exec i (s.withSySide x) = mapNext (State.withSySide x) (exec i s) := by
  cases i with
  | frConfig w1 w2 w3 => exact execFrConfig_withSySide x s w1 w2 w3
  | frForecast n => exact execFrForecast_withSySide x s n
  | frWork n => exact execFrWork_withSySide x s n
  | frReset => rfl
  | nop | syConfig | syForecast | syWork | syReset | rdreg | rdtab => cases hi

end SySide

/-- An FR command leaves unit SY and its buffers as they were. -/
theorem sySide_of_exec {i : Instr} {s t : State} (hi : opcodeUnit i.opcode = some .fr) (h : exec i s = .next t) :
    t.sySide = s.sySide := by
  have ht : t.withSySide s.sySide = t := fixed_of_exec_commutes (exec_withSySide s.sySide s hi) rfl h
  rw [← ht, sySide_withSySide]

/-- With the registers of unit SY alone replaced, an FR command leads to the same state with them replaced. -/
theorem exec_with_sy {i : Instr} {s t : State} (hi : opcodeUnit i.opcode = some .fr) (h : exec i s = .next t)
    (sy' : SyUnit) : exec i { s with sy := sy' } = .next { t with sy := sy' } := by
  have hside : t.sySide = s.sySide := sySide_of_exec hi h
  calc exec i { s with sy := sy' }
      = mapNext (State.withSySide { s.sySide with unit := sy' }) (exec i s) :=
        exec_withSySide { s.sySide with unit := sy' } s hi
    _ = .next (t.withSySide { t.sySide with unit := sy' }) := by rw [h, hside]; rfl

/-! ## Commands of unit SY and the side of unit FR -/

/-- What the state holds of unit FR: its registers, and the buffers of its work commands. -/
structure FrSide where
  unit : FrUnit
  bufs : List (Buffers Byte)
  returned : List (Buffers Byte)

def State.frSide (s : State) : FrSide := ⟨s.fr, s.frBufs, s.frReturned⟩

/-- The state with another side of unit FR. -/
def State.withFrSide (x : FrSide) (s : State) : State :=
  { s with fr := x.unit, frBufs := x.bufs, frReturned := x.returned }

section FrSide
variable (x : FrSide) (s : State)

@[simp] theorem withFrSide_sy : (s.withFrSide x).sy = s.sy := rfl
@[simp] theorem handedSy_withFrSide : handedSy (s.withFrSide x) = handedSy s := rfl
@[simp] theorem frSide_withFrSide : (s.withFrSide x).frSide = x := rfl

theorem execSyConfig_withFrSide (w1 w2 : Word) (window : List Word) :
    execSyConfig w1 w2 window (s.withFrSide x) = mapNext (State.withFrSide x) (execSyConfig w1 w2 window s) := by
  simp only [execSyConfig, withFrSide_sy]
  split <;> rfl

theorem execSyForecast_withFrSide (n : Word) :
    execSyForecast n (s.withFrSide x) = mapNext (State.withFrSide x) (execSyForecast n s) := by
  simp only [execSyForecast, withFrSide_sy]
  split <;> rfl

theorem execSyWork_withFrSide (n : Word) :
    execSyWork n (s.withFrSide x) = mapNext (State.withFrSide x) (execSyWork n s) := by
  simp only [execSyWork, withFrSide_sy, handedSy_withFrSide]
  split <;> rfl

/-- An SY command does the same whatever unit FR and its buffers hold. -/
theorem exec_withFrSide {i : Instr} (hi : opcodeUnit i.opcode = some .sy) :
    exec i (s.withFrSide x) = mapNext (State.withFrSide x) (exec i s) := by
  cases i with
  | syConfig w1 w2 window => exact execSyConfig_withFrSide x s w1 w2 window
  | syForecast n => exact execSyForecast_withFrSide x s n
  | syWork n => exact execSyWork_withFrSide x s n
  | syReset => rfl
  | nop | frConfig | frForecast | frWork | frReset | rdreg | rdtab => cases hi

end FrSide

/-- An SY command leaves unit FR and its buffers as they were. -/
theorem frSide_of_exec {i : Instr} {s t : State} (hi : opcodeUnit i.opcode = some .sy) (h : exec i s = .next t) :
    t.frSide = s.frSide := by
  have ht : t.withFrSide s.frSide = t := fixed_of_exec_commutes (exec_withFrSide s.frSide s hi) rfl h
  rw [← ht, frSide_withFrSide]

/-- With the registers of unit FR alone replaced, an SY command leads to the same state with them replaced. -/
theorem exec_with_fr {i : Instr} {s t : State} (hi : opcodeUnit i.opcode = some .sy) (h : exec i s = .next t)
    (fr' : FrUnit) : exec i { s with fr := fr' } = .next { t with fr := fr' } := by
  have hside : t.frSide = s.frSide := frSide_of_exec hi h
  calc exec i { s with fr := fr' }
      = mapNext (State.withFrSide { s.frSide with unit := fr' }) (exec i s) :=
        exec_withFrSide { s.frSide with unit := fr' } s hi
    _ = .next (t.withFrSide { t.frSide with unit := fr' }) := by rw [h, hside]; rfl

/-! ## Isolation -/

/-- Settles O15: a command of one unit commutes with replacing the other unit's side of the state. -/
theorem unitsAreIsolated : Obligations.UnitsAreIsolated := by
  intro i s t h
  constructor
  · intro hi
    obtain ⟨hunit, hbufs, hreturned⟩ := SySide.mk.inj (sySide_of_exec hi h)
    exact ⟨hunit, hbufs, hreturned, exec_with_sy hi h⟩
  · intro hi
    obtain ⟨hunit, hbufs, hreturned⟩ := FrSide.mk.inj (frSide_of_exec hi h)
    exact ⟨hunit, hbufs, hreturned, exec_with_fr hi h⟩

end Sys2Proof.Machine
end

section
/-! PROOFS, shared part: what a step can do. `StepsTo` and `Executes` list the ways in which a step or a command leads to
a next state, each with the next state written out and the checks that were passed. Every invariant is then a short case
analysis over these two lists, and no proof unfolds `step` or `exec` again. -/

namespace Sys2Proof

/-- A command that decoding builds is well-formed: it has all its operand words (30_encoding.md R83, R85). -/
theorem wellFormed_of_decode {ws rest : List Word} {i : Instr} (h : decode ws = .instr i rest) : i.WellFormed := by
  unfold decode at h
  split at h
  · cases h
  · next w args =>
    split at h
    · cases h
    · next op _ =>
      split_ifs at h with hlen himm
      obtain ⟨rfl, -⟩ := Fetched.instr.inj h
      cases op with
      | syConfig =>
        have hargs : 1026 ≤ args.length := by simpa [operandCount] using hlen
        simp [buildInstr, Instr.WellFormed, Instr.wellFormed, operandCount, hargs]
      | _ => rfl

namespace Machine

/-! ## Faults -/

section Fault
variable (s : State) (op : Opcode) (code : FaultCode)

@[simp] theorem faultCommand_fr : (faultCommand op code s).fr =
    if opcodeUnit op = some .fr then { s.fr with status := recordFault code s.fr.status } else s.fr := by
  rw [faultCommand_eq]

@[simp] theorem faultCommand_sy : (faultCommand op code s).sy =
    if opcodeUnit op = some .sy then { s.sy with status := recordFault code s.sy.status } else s.sy := by
  rw [faultCommand_eq]

@[simp] theorem faultCommand_log :
    (faultCommand op code s).log = s.log ++ [.fault (opcodeUnit op) code (opcodeByte op)] := by
  rw [faultCommand_eq]

end Fault

/-! ## Checks that pass -/

/-- A chain of checks passes if its first check passes and its later ones do. -/
theorem check_eq_none {p : Prop} [Decidable p] {code : FaultCode} {later : Option FaultCode} :
    (if p then some code else later) = none ↔ ¬p ∧ later = none := by
  split <;> simp [*]

/-- The lifecycle check of forecast and work commands lets exactly the READY units through (R122, R124, R182, R183). -/
theorem readyCheck_eq_none {status : Word} : readyCheck status = none ↔ Ready status := by
  simp [readyCheck, check_eq_none, Ready, and_comm]

/-- What FR_CONFIG has checked when it completes (R120). -/
theorem frConfigCheck_eq_none {w1 w2 w3 : Word} {u : FrUnit} : frConfigCheck w1 w2 w3 u = none ↔
    Unconfigured u.status ∧ w1 &&& frCfgReserved = 0 ∧ (frInband w1 = true → w2 ≠ 0) ∧ w3.toNat < 2 ^ 27 := by
  simp only [frConfigCheck, check_eq_none]
  simp [Unconfigured, and_assoc, and_left_comm]

/-- What SY_CONFIG has checked when it completes (R170, R172). -/
theorem syConfigCheck_eq_none {w1 w2 : Word} {window : List Word} {u : SyUnit} :
    syConfigCheck w1 w2 window u = none ↔ Unconfigured u.status ∧ w1 &&& syCfgReserved = 0 ∧ syFft w1 ≠ 7 ∧
      syGi w1 ≠ 7 ∧ window.any nonFinite = false ∧ insertionItemsOf w1 w2 < 2 ^ 32 := by
  simp only [syConfigCheck, check_eq_none]
  simp [Unconfigured, and_assoc, and_left_comm]

/-- FR_WORK completes on a READY unit only (R124). -/
theorem ready_of_frWorkCheck {n : Nat} {b : Buffers Byte} {u : FrUnit} (h : frWorkCheck n b u = none) :
    Ready u.status := by
  unfold frWorkCheck at h
  split at h
  · cases h
  · next hready => exact readyCheck_eq_none.mp hready

/-! ## Commands -/

/-- The ways in which a command leads from `s` to a next state: it faults, or it completes after its checks. -/
inductive Executes (s : State) : Instr → State → Prop
  | fault (i : Instr) (code : FaultCode) : Executes s i (faultCommand i.opcode code s)
  | nop : Executes s .nop (respond (.ok []) s)
  | rdreg {reg : Byte} {v : Word} (read : readReg s reg = some v) : Executes s (.rdreg reg) (respond (.ok [v]) s)
  | rdtab {tab : Byte} {idx : BitVec 16} {ws : List Word} (read : readTab s tab idx = some ws) :
      Executes s (.rdtab tab idx) (respond (.ok ws) s)
  | frConfig {w1 w2 w3 : Word} (passed : frConfigCheck w1 w2 w3 s.fr = none) :
      Executes s (.frConfig w1 w2 w3)
        (respond (.ok [(frConfigured w1 w2 w3 s.fr).kbch]) { s with fr := frConfigured w1 w2 w3 s.fr })
  | frForecast {n : Word} (passed : readyCheck s.fr.status = none) :
      Executes s (.frForecast n) (respond (.ok [BitVec.ofNat 32 (frForecast (frHem s.fr.cfg) n.toNat)]) s)
  | frWork {n : Word} (passed : frWorkCheck n.toNat (handedFr s) s.fr = none) :
      Executes s (.frWork n)
        (respond (.ok [BitVec.ofNat 32 (frConsumed (handedFr s) (frWorkRun n.toNat (handedFr s) s.fr)), n])
          { logEvents (frWorkRun n.toNat (handedFr s) s.fr).events
              (completeFr (elements (frWorkRun n.toNat (handedFr s) s.fr).bits) s) with
            fr := (frWorkRun n.toNat (handedFr s) s.fr).unit })
  | frReset : Executes s .frReset (respond (.ok []) { s with fr := FrUnit.reset })
  | syConfig {w1 w2 : Word} {window : List Word} (passed : syConfigCheck w1 w2 window s.sy = none) :
      Executes s (.syConfig w1 w2 window)
        (respond (.ok [(syConfigured w1 w2 window s.sy).insertionItems])
          { s with sy := syConfigured w1 w2 window s.sy })
  | syForecast {n : Word} (passed : readyCheck s.sy.status = none) :
      Executes s (.syForecast n) (respond (.ok [BitVec.ofNat 32 (syForecast s.sy n.toNat)]) s)
  | syWork {n : Word} (passed : syWorkCheck n.toNat (handedSy s) s.sy = none) :
      Executes s (.syWork n)
        (respond (.ok [BitVec.ofNat 32 (n.toNat / s.sy.insertionItems.toNat * s.sy.frameItems.toNat), n])
          (completeSy (chunks s.sy (n.toNat / s.sy.insertionItems.toNat) (handedSy s).input) s))
  | syReset : Executes s .syReset (respond (.ok []) { s with sy := SyUnit.reset })

/-- Every command answers a next state, in one of the listed ways. -/
theorem exists_exec_eq_next (i : Instr) (s : State) : ∃ t, exec i s = .next t ∧ Executes s i t := by
  cases i with
  | nop => exact ⟨_, rfl, .nop⟩
  | frReset => exact ⟨_, rfl, .frReset⟩
  | syReset => exact ⟨_, rfl, .syReset⟩
  | rdreg reg =>
    simp only [exec, execRdreg]
    split
    · next read => exact ⟨_, rfl, .rdreg read⟩
    · exact ⟨_, rfl, .fault (.rdreg reg) _⟩
  | rdtab tab idx =>
    simp only [exec, execRdtab]
    split
    · next read => exact ⟨_, rfl, .rdtab read⟩
    · exact ⟨_, rfl, .fault (.rdtab tab idx) _⟩
  | frConfig w1 w2 w3 =>
    simp only [exec, execFrConfig]
    split
    · exact ⟨_, rfl, .fault (.frConfig w1 w2 w3) _⟩
    · next passed => exact ⟨_, rfl, .frConfig passed⟩
  | frForecast n =>
    simp only [exec, execFrForecast]
    split
    · exact ⟨_, rfl, .fault (.frForecast n) _⟩
    · next passed => exact ⟨_, rfl, .frForecast passed⟩
  | frWork n =>
    simp only [exec, execFrWork]
    split
    · exact ⟨_, rfl, .fault (.frWork n) _⟩
    · next passed => exact ⟨_, rfl, .frWork passed⟩
  | syConfig w1 w2 window =>
    simp only [exec, execSyConfig]
    split
    · exact ⟨_, rfl, .fault (.syConfig w1 w2 window) _⟩
    · next passed => exact ⟨_, rfl, .syConfig passed⟩
  | syForecast n =>
    simp only [exec, execSyForecast]
    split
    · exact ⟨_, rfl, .fault (.syForecast n) _⟩
    · next passed => exact ⟨_, rfl, .syForecast passed⟩
  | syWork n =>
    simp only [exec, execSyWork]
    split
    · exact ⟨_, rfl, .fault (.syWork n) _⟩
    · next passed => exact ⟨_, rfl, .syWork passed⟩

theorem executes_of_exec {i : Instr} {s t : State} (h : exec i s = .next t) : Executes s i t := by
  obtain ⟨t', hexec, hexecutes⟩ := exists_exec_eq_next i s
  rw [h] at hexec
  cases hexec
  exact hexecutes

/-! ## Steps -/

/-- The ways in which a step leads from `s` to a next state. -/
inductive StepsTo (s : State) : State → Prop
  | powerOnReset (pin : s.resetPin = true) : StepsTo s (powerOnReset s)
  | illegal {opc : Byte} {rest : List Word} (pin : s.resetPin = false) (fetched : decode s.port = .illegal opc rest) :
      StepsTo s (rejectIllegal opc { s with port := rest })
  | reserved {op : Opcode} {rest : List Word} (pin : s.resetPin = false) (fetched : decode s.port = .reserved op rest) :
      StepsTo s (rejectReserved op { s with port := rest })
  | command {i : Instr} {rest : List Word} {t : State} (pin : s.resetPin = false)
      (fetched : decode s.port = .instr i rest) (executes : Executes { s with port := rest } i t) : StepsTo s t

theorem stepsTo_of_step {s t : State} (h : step s = .next t) : StepsTo s t := by
  unfold step at h
  split at h
  · next pin => cases h; exact .powerOnReset pin
  · next pin =>
    have pin : s.resetPin = false := by simpa using pin
    split at h
    · cases h
    · next fetched => cases h; exact .illegal pin fetched
    · next fetched => cases h; exact .reserved pin fetched
    · next fetched => exact .command pin fetched (executes_of_exec h)

/-- An illegal opcode is one that decoding does not know (30_encoding.md R86). -/
theorem opcodeOf_of_decode_illegal {ws rest : List Word} {opc : Byte} (h : decode ws = .illegal opc rest) :
    opcodeOf opc = none := by
  unfold decode at h
  split at h
  · cases h
  · split at h
    · next hnone =>
      obtain ⟨rfl, -⟩ := Fetched.illegal.inj h
      exact hnone
    · split_ifs at h

end Machine
end Sys2Proof
end

section
/-! PROOFS about the diagnostic log (10_state.md R31): it only grows, by events the CORE can make. -/

namespace Sys2Proof.Machine

open Sys2Proof

/-! ## Synchronization errors -/

/-- A check of a byte reports only a byte that is not the sync byte (40_framer.md R133). -/
theorem legal_of_mem_syncEvents {pos : BitVec 64} {b : Byte} {e : Event} (he : e ∈ syncEvents pos b) : e.Legal := by
  unfold syncEvents at he
  split at he
  · cases he
  · next hne =>
    obtain rfl := List.mem_singleton.mp he
    exact hne

theorem legal_of_mem_payloadByte {u : FrUnit} {b : Byte} {e : Event} (he : e ∈ (payloadByte u b).events) : e.Legal := by
  unfold payloadByte at he
  split_ifs at he
  · exact legal_of_mem_syncEvents he
  · exact legal_of_mem_syncEvents he
  · cases he
  · cases he

theorem legal_of_mem_payloadRun {u : FrUnit} {slots : Nat} {input : List Byte} {e : Event}
    (he : e ∈ (payloadRun u slots input).events) : e.Legal := by
  induction input generalizing u slots with
  | nil => cases he
  | cons b bs ih =>
    unfold payloadRun at he
    split at he
    · cases he
    · obtain he | he := List.mem_append.mp he
      · exact legal_of_mem_payloadByte he
      · exact ih he

theorem legal_of_mem_framesRun {k : Nat} {u : FrUnit} {input : List Byte} {e : Event}
    (he : e ∈ (framesRun k u input).events) : e.Legal := by
  induction k generalizing u input with
  | zero => cases he
  | succ k ih =>
    obtain he | he := List.mem_append.mp he
    · exact legal_of_mem_payloadRun he
    · exact ih he

/-! ## Growth -/

/-- The log `after` is the log `before` followed by events the CORE can make. -/
def LogExtends (before after : List Event) : Prop := ∃ es, after = before ++ es ∧ ∀ e ∈ es, e.Legal

theorem LogExtends.refl (log : List Event) : LogExtends log log := ⟨[], by simp, by simp⟩

/-- An extended log holds legal events if the log before did. -/
theorem LogExtends.legal {before after : List Event} (h : LogExtends before after) (hbefore : ∀ e ∈ before, e.Legal) :
    ∀ e ∈ after, e.Legal := by
  obtain ⟨es, rfl, hes⟩ := h
  exact List.forall_mem_append.mpr ⟨hbefore, hes⟩

/-- A faulting command logs the unit that its opcode names (60_exceptions.md R231). -/
theorem logExtends_faultCommand (s : State) (op : Opcode) (code : FaultCode) :
    LogExtends s.log (faultCommand op code s).log :=
  ⟨[.fault (opcodeUnit op) code (opcodeByte op)], faultCommand_log s op code, by simp [Event.Legal]⟩

/-- A reserved opcode is logged without a unit (30_encoding.md R86). -/
theorem logExtends_rejectIllegal (s : State) {opc : Byte} (h : opcodeOf opc = none) :
    LogExtends s.log (rejectIllegal opc s).log :=
  ⟨[.fault none .illegalOpcode opc], rfl, by simp [Event.Legal, h]⟩

theorem Executes.logExtends {i : Instr} {s t : State} (h : Executes s i t) : LogExtends s.log t.log := by
  cases h with
  | fault i code => exact logExtends_faultCommand s i.opcode code
  | frWork _ => exact ⟨_, rfl, fun _ => legal_of_mem_framesRun⟩
  | nop | rdreg | rdtab | frConfig | frForecast | frReset | syConfig | syForecast | syWork | syReset => exact .refl _

/-- Without a power-on reset a step only extends the log (10_state.md R31). -/
theorem StepsTo.logExtends {s t : State} (h : StepsTo s t) (hpin : s.resetPin = false) : LogExtends s.log t.log := by
  cases h with
  | powerOnReset pin => simp [hpin] at pin
  | @illegal opc rest _ fetched =>
    exact logExtends_rejectIllegal { s with port := rest } (opcodeOf_of_decode_illegal fetched)
  | @reserved op rest _ _ => exact logExtends_faultCommand { s with port := rest } op .reservedBits
  | command _ _ executes => exact executes.logExtends

/-- Settles O14, over the ways in which a step leads to a next state. -/
theorem logOnlyGrows : Obligations.LogOnlyGrows :=
  fun _ _ hpin h => (stepsTo_of_step h).logExtends hpin

end Sys2Proof.Machine
end

section
/-! PROOFS of the invariant StepKeepsLegal (10_state.md R21 to R45): each operation on a status word, on unit FR and on
unit SY keeps legality; a command and a step are made of these. -/

namespace Sys2Proof.Machine

open Sys2Proof

/-! ## Status words -/

theorem StatusFaultsAgree.recordFault {status : Word} (h : StatusFaultsAgree status) (c : FaultCode) :
    StatusFaultsAgree (recordFault c status) := by
  refine ⟨fun hf => by simp at hf, fun _ => ?_⟩
  rw [faultCodeField_recordFault]
  split
  · next hf => exact h.2 hf
  · exact faultCodeByte_range c

theorem StatusFaultsAgree.setSyncErr {status : Word} (h : StatusFaultsAgree status) :
    StatusFaultsAgree (setSyncErr status) := by
  simpa [StatusFaultsAgree] using h

theorem StatusFaultsAgree.setConfigured {status : Word} (h : StatusFaultsAgree status) :
    StatusFaultsAgree (setConfigured status) := by
  simpa [StatusFaultsAgree] using h

/-- A fault leaves reserved bits at 0: any bits other than FAULTED and FAULTCODE (60_exceptions.md R231). -/
theorem recordFault_and_eq_zero {status mask : Word} (c : FaultCode) (hmask : 0xFFFF00FD &&& mask = mask)
    (h : status &&& mask = 0) : recordFault c status &&& mask = 0 := by
  calc recordFault c status &&& mask
      = recordFault c status &&& 0xFFFF00FD &&& mask := by rw [BitVec.and_assoc, hmask]
    _ = status &&& mask := by rw [recordFault_and, BitVec.and_assoc, hmask]
    _ = 0 := h

/-! ## Unit FR: reset, fault and configuration -/

theorem FrUnit.legal_reset : FrUnit.reset.Legal where
  statusReserved := rfl
  faults := ⟨fun _ => rfl, by decide⟩
  cfgReserved := rfl
  countRange := by decide
  hemCrc _ := rfl
  fecFrozen _ := rfl
  syncSticky _ := rfl
  configured h := absurd h (by decide)
  unconfigured _ := ⟨rfl, rfl⟩

theorem FrUnit.Legal.recordFault {u : FrUnit} (h : u.Legal) (c : FaultCode) :
    FrUnit.Legal { u with status := recordFault c u.status } where
  statusReserved := recordFault_and_eq_zero c (by decide) h.statusReserved
  faults := h.faults.recordFault c
  cfgReserved := h.cfgReserved
  countRange := h.countRange
  hemCrc := h.hemCrc
  fecFrozen := h.fecFrozen
  syncSticky hsync := h.syncSticky (by simpa using hsync)
  configured hc := h.configured (by simpa using hc)
  unconfigured hc := by
    obtain ⟨hreset, hsync⟩ := h.unconfigured (by simpa using hc)
    exact ⟨congrArg (fun v => { v with status := Machine.recordFault c u.status }) hreset, by simpa using hsync⟩

theorem FrUnit.Legal.frConfigured {u : FrUnit} {w1 w2 w3 : Word} (h : u.Legal)
    (passed : frConfigCheck w1 w2 w3 u = none) : (frConfigured w1 w2 w3 u).Legal := by
  obtain ⟨⟨hconf, -⟩, hreserved, hblocks, hrate⟩ := frConfigCheck_eq_none.mp passed
  obtain ⟨-, hsync⟩ := h.unconfigured hconf
  exact {
    statusReserved := and_or_eq_zero h.statusReserved (by decide)
    faults := h.faults.setConfigured
    cfgReserved := hreserved
    countRange := Nat.zero_lt_succ 187
    hemCrc := fun _ => rfl
    fecFrozen := fun _ => rfl
    syncSticky := fun _ => h.syncSticky hsync
    configured := fun _ => ⟨rfl, hrate, fun hin => by
      have hpos : w2.toNat ≠ 0 := fun h0 => hblocks hin (BitVec.eq_of_toNat_eq h0)
      exact Nat.pos_of_ne_zero hpos⟩
    unconfigured := fun hc => by simp [Machine.frConfigured] at hc }

/-! ## Unit FR: frames -/

section PayloadByte
variable (u : FrUnit) (b : Byte)

/-- A payload byte either leaves the status and the error count, or sets SYNCERR (40_framer.md R132, R133). -/
theorem payloadByte_status_cases :
    ((payloadByte u b).unit.status = u.status ∧ (payloadByte u b).unit.syncErr = u.syncErr) ∨
      (payloadByte u b).unit.status = setSyncErr u.status := by
  unfold payloadByte syncCheck
  split_ifs
  · exact .inl ⟨rfl, rfl⟩
  · exact .inl ⟨rfl, rfl⟩
  · exact .inr rfl
  · exact .inr rfl
  · exact .inl ⟨rfl, rfl⟩
  · exact .inl ⟨rfl, rfl⟩

@[simp] theorem isConfigured_payloadByte : isConfigured (payloadByte u b).unit.status = isConfigured u.status := by
  obtain ⟨hst, -⟩ | hst := payloadByte_status_cases u b
  · rw [hst]
  · rw [hst, isConfigured_setSyncErr]

/-- High-efficiency mode does not touch the payload checksum (10_state.md R27). -/
theorem payloadByte_crc_of_hem (h : frHem u.cfg = true) : (payloadByte u b).unit.crc = u.crc := by
  unfold payloadByte syncCheck
  split_ifs <;> rfl

end PayloadByte

/-- A unit that emits frames: it is legal and configured. -/
def FrUnit.Working (u : FrUnit) : Prop := u.Legal ∧ isConfigured u.status = true

theorem FrUnit.Working.payloadByte {u : FrUnit} (h : u.Working) (b : Byte) : (payloadByte u b).unit.Working := by
  obtain ⟨hl, hconf⟩ := h
  have hstatus := payloadByte_status_cases u b
  refine ⟨?_, by simpa using hconf⟩
  exact {
    statusReserved := by
      obtain ⟨hst, -⟩ | hst := hstatus <;> rw [hst]
      · exact hl.statusReserved
      · exact and_or_eq_zero hl.statusReserved (by decide)
    faults := by
      obtain ⟨hst, -⟩ | hst := hstatus <;> rw [hst]
      · exact hl.faults
      · exact hl.faults.setSyncErr
    cfgReserved := by simpa using hl.cfgReserved
    countRange := by
      rw [payloadByte_count, toNat_nextCount]
      exact Nat.mod_lt _ (by decide)
    hemCrc := fun hhem => by
      rw [payloadByte_cfg] at hhem
      rw [payloadByte_crc_of_hem u b hhem, hl.hemCrc hhem]
    fecFrozen := by simpa using hl.fecFrozen
    syncSticky := fun hsync => by
      obtain ⟨hst, hcount⟩ | hst := hstatus
      · rw [hcount, hl.syncSticky (hst ▸ hsync)]
      · simp [hst] at hsync
    configured := by simpa using hl.configured
    unconfigured := fun hc => by simp [hconf] at hc }

/-- What every payload byte keeps, filling payload slots keeps. -/
theorem payloadRun_invariant {P : FrUnit → Prop} (hbyte : ∀ u b, P u → P (payloadByte u b).unit) {u : FrUnit}
    {slots : Nat} {input : List Byte} (h : P u) : P (payloadRun u slots input).unit := by
  induction input generalizing u slots with
  | nil => exact h
  | cons b bs ih =>
    unfold payloadRun
    split
    · exact h
    · exact ih (hbyte u b h)

theorem FrUnit.Working.advanceFecBlock {u : FrUnit} (h : u.Working) : (advanceFecBlock u).Working := by
  obtain ⟨hl, hconf⟩ := h
  unfold Machine.advanceFecBlock
  split
  · next hin =>
    refine ⟨{ hl with
      fecFrozen := fun hout => by simp [hin] at hout
      configured := fun _ => ?_
      unconfigured := fun hc => by simp [hconf] at hc }, hconf⟩
    obtain ⟨hkbch, hrate, hblock⟩ := hl.configured hconf
    refine ⟨hkbch, hrate, fun _ => ?_⟩
    have hpos : 0 < u.fecBlocks.toNat := Nat.zero_lt_of_lt (hblock hin)
    calc (BitVec.ofNat 32 ((u.fecBlock.toNat + 1) % u.fecBlocks.toNat)).toNat
        ≤ (u.fecBlock.toNat + 1) % u.fecBlocks.toNat := by
          rw [BitVec.toNat_ofNat]; exact Nat.mod_le _ _
      _ < u.fecBlocks.toNat := Nat.mod_lt _ hpos
  · exact ⟨hl, hconf⟩

/-- What every frame keeps, frames back to back keep. -/
theorem framesRun_invariant {P : FrUnit → Prop} (hframe : ∀ u input, P u → P (frameRun u input).unit) {k : Nat}
    {u : FrUnit} {input : List Byte} (h : P u) : P (framesRun k u input).unit := by
  induction k generalizing u input with
  | zero => exact h
  | succ k ih => exact ih (hframe u input h)

theorem FrUnit.Working.frameRun {u : FrUnit} (h : u.Working) (input : List Byte) : (frameRun u input).unit.Working :=
  (payloadRun_invariant (fun _ b hu => hu.payloadByte b) h).advanceFecBlock

theorem FrUnit.Working.framesRun {u : FrUnit} (h : u.Working) (k : Nat) (input : List Byte) :
    (framesRun k u input).unit.Working :=
  framesRun_invariant (fun _ bs hu => hu.frameRun bs) h

/-! ## Unit SY -/

theorem SyUnit.legal_reset : SyUnit.reset.Legal where
  statusReserved := rfl
  faults := ⟨fun _ => rfl, by decide⟩
  cfgReserved := rfl
  winLength := length_reset_win
  p1ALength := length_reset_p1A
  p1ShLength := length_reset_p1Sh
  configured h := absurd h (by decide)
  unconfigured _ := rfl

theorem SyUnit.Legal.recordFault {u : SyUnit} (h : u.Legal) (c : FaultCode) :
    SyUnit.Legal { u with status := recordFault c u.status } where
  statusReserved := recordFault_and_eq_zero c (by decide) h.statusReserved
  faults := h.faults.recordFault c
  cfgReserved := h.cfgReserved
  winLength := h.winLength
  p1ALength := h.p1ALength
  p1ShLength := h.p1ShLength
  configured hc := by
    obtain ⟨hfft, hgi, hwin, hitems, hderived⟩ := h.configured (by simpa using hc)
    have hfaulted := congrArg (fun v => { v with status := Machine.recordFault c u.status }) hderived
    exact ⟨hfft, hgi, hwin, hitems, by simpa only using hfaulted⟩
  unconfigured hc :=
    congrArg (fun v => { v with status := Machine.recordFault c u.status }) (h.unconfigured (by simpa using hc))

@[simp] theorem length_storedWaveform (exact : Nat → ExactValue) : (storedWaveform exact).length = 1024 := by
  simp [storedWaveform]

theorem SyUnit.Legal.syConfigured {u : SyUnit} {w1 w2 : Word} {window : List Word} (h : u.Legal)
    (hlength : window.length = 1024) (passed : syConfigCheck w1 w2 window u = none) :
    (syConfigured w1 w2 window u).Legal := by
  obtain ⟨-, hreserved, hfft, hgi, hwin, hitems⟩ := syConfigCheck_eq_none.mp passed
  exact {
    statusReserved := and_or_eq_zero h.statusReserved (by decide)
    faults := h.faults.setConfigured
    cfgReserved := hreserved
    winLength := hlength
    p1ALength := by simp [Machine.syConfigured]
    p1ShLength := by simp [Machine.syConfigured]
    configured := fun _ => ⟨hfft, hgi, hwin, hitems, by simp only [Machine.syConfigured]⟩
    unconfigured := fun hc => by simp [Machine.syConfigured] at hc }

/-! ## Commands and steps -/

theorem State.Legal.faultCommand {s : State} (h : s.Legal) (op : Opcode) (code : FaultCode) :
    (faultCommand op code s).Legal where
  fr := by
    rw [faultCommand_fr]
    split
    · exact h.fr.recordFault code
    · exact h.fr
  sy := by
    rw [faultCommand_sy]
    split
    · exact h.sy.recordFault code
    · exact h.sy
  log := (logExtends_faultCommand s op code).legal h.log

/-- A command with all its operand words keeps the state legal. -/
theorem State.Legal.executes {i : Instr} {s t : State} (hs : s.Legal) (hi : i.WellFormed) (h : Executes s i t) :
    t.Legal := by
  have hlog : ∀ e ∈ t.log, e.Legal := h.logExtends.legal hs.log
  cases h with
  | fault i code => exact hs.faultCommand i.opcode code
  | frConfig passed => exact ⟨hs.fr.frConfigured passed, hs.sy, hlog⟩
  | frWork passed =>
    obtain ⟨hconf, -⟩ := ready_of_frWorkCheck passed
    have hwork : s.fr.Working := ⟨hs.fr, hconf⟩
    obtain ⟨hfr, -⟩ := hwork.framesRun _ _
    exact ⟨hfr, hs.sy, hlog⟩
  | frReset => exact ⟨FrUnit.legal_reset, hs.sy, hlog⟩
  | @syConfig _ _ window passed =>
    have hlength : window.length = 1024 := by simpa [Instr.WellFormed, Instr.wellFormed] using hi
    exact ⟨hs.fr, hs.sy.syConfigured hlength passed, hlog⟩
  | syReset => exact ⟨hs.fr, SyUnit.legal_reset, hlog⟩
  | nop | rdreg | rdtab | frForecast | syForecast | syWork => exact ⟨hs.fr, hs.sy, hlog⟩

/-- Legality does not speak of the words at the port. -/
theorem State.Legal.withPort {s : State} (h : s.Legal) (ws : List Word) : State.Legal { s with port := ws } :=
  ⟨h.fr, h.sy, h.log⟩

/-- Power-on reset leads to a legal state from every state. -/
theorem legal_powerOnReset (s : State) : (powerOnReset s).Legal :=
  ⟨FrUnit.legal_reset, SyUnit.legal_reset, by simp⟩

theorem State.Legal.stepsTo {s t : State} (hs : s.Legal) (h : StepsTo s t) : t.Legal := by
  cases h with
  | powerOnReset _ => exact legal_powerOnReset s
  | @illegal opc rest _ fetched =>
    exact ⟨hs.fr, hs.sy,
      (logExtends_rejectIllegal { s with port := rest } (opcodeOf_of_decode_illegal fetched)).legal hs.log⟩
  | @reserved op rest _ _ => exact (hs.withPort rest).faultCommand op .reservedBits
  | @command _ rest _ _ fetched executes => exact (hs.withPort rest).executes (wellFormed_of_decode fetched) executes

/-- Settles O20, over the ways in which a step leads to a next state. -/
theorem stepKeepsLegal : Obligations.StepKeepsLegal :=
  fun _ _ hs h => hs.stepsTo (stepsTo_of_step h)

end Sys2Proof.Machine
end

section
/-! PROOFS about the derived parameters of unit SY and kbch: the listed tables (10_state.md R24, R37, R38; 41_synth.md
R171), and the normalization constant (10_state.md R41). -/

namespace Sys2Proof.Machine

open Sys2Proof

/-- Settles O47: the entries listed, and the two divisibility laws over all codes. -/
theorem derivedParameterTables : Obligations.DerivedParameterTables := by
  have hkbch : ∀ short rate, kbchTable short rate % 8 = 0 := by decide
  have hguard : ∀ fft gi : BitVec 3, fft ≠ 7 → gi ≠ 7 → fftSizeTable fft * (giTable gi).1 % (giTable gi).2 = 0 := by
    decide
  exact ⟨by decide, by decide, hkbch, by decide, by decide, hguard⟩

/-! ## The normalization constant -/

/-- With significand m and exponent e, the midpoints between a positive encoding and its neighbours are
`(2 m - 1) 2^e / 2^151` and `(2 m + 1) 2^e / 2^151`. -/
theorem binary32Value_add_half_ulp {c : Word} (hpos : c.msb = false) (δ : ℤ) :
    binary32Value c + δ * (2 ^ scaleExp c / 2 ^ 151) = ((2 * significand c + δ : ℤ) : ℚ) * 2 ^ scaleExp c / 2 ^ 151 := by
  simp only [binary32Value, hpos]
  push_cast
  ring

/-- The radicand `25 / (27 C_PS)` compared with the square of a midpoint, in integers. -/
theorem midpoint_sq_mul_lt_iff (k : ℤ) (e cps : ℕ) :
    ((k : ℚ) * 2 ^ e / 2 ^ 151) ^ 2 * (27 * cps) < 25 ↔ (k * 2 ^ e) ^ 2 * (27 * cps) < 25 * (2 ^ 151) ^ 2 := by
  rw [div_pow, div_mul_eq_mul_div, div_lt_iff₀ (by positivity)]
  exact_mod_cast Iff.rfl

theorem lt_midpoint_sq_mul_iff (k : ℤ) (e cps : ℕ) :
    25 < ((k : ℚ) * 2 ^ e / 2 ^ 151) ^ 2 * (27 * cps) ↔ 25 * (2 ^ 151) ^ 2 < (k * 2 ^ e) ^ 2 * (27 * cps) := by
  rw [div_pow, div_mul_eq_mul_div, lt_div_iff₀ (by positivity)]
  exact_mod_cast Iff.rfl

/-- The encoding is positive, normal and no power of two, and the squares of the midpoints to its neighbours enclose
`25 / (27 C_PS)`, compared in integers. -/
abbrev MidpointsEnclose (c : Word) (cps : ℕ) : Prop :=
  c.msb = false ∧ 0 < expField c ∧ expField c < 255 ∧ fracField c ≠ 0 ∧
  ((2 * significand c + (-1) : ℤ) * 2 ^ scaleExp c) ^ 2 * (27 * cps) < 25 * (2 ^ 151) ^ 2 ∧
  25 * (2 ^ 151) ^ 2 < ((2 * significand c + 1 : ℤ) * 2 ^ scaleExp c) ^ 2 * (27 * cps)

/-- The legal configurations have fourteen pairs of codes, and each is computed. -/
theorem midpointsEnclose_scaleConstant : ∀ (fft : BitVec 3) (extended : Bool), fft ≠ 7 →
    MidpointsEnclose (scaleConstant (cpsTable fft extended)) (cpsTable fft extended) := by
  decide +kernel

/-- Settles O54: the comparison with the midpoints is one of integers, and that one holds for each code. -/
theorem scaleIsNearest : Obligations.ScaleIsNearest := by
  intro fft extended hfft
  obtain ⟨hpos, hexp, hfinite, hfrac, hbelow, habove⟩ := midpointsEnclose_scaleConstant fft extended hfft
  refine ⟨hpos, hexp, hfinite, hfrac, ?_, ?_⟩
  · have hmid := binary32Value_add_half_ulp hpos (-1)
    rw [Int.cast_neg, Int.cast_one, neg_one_mul, ← sub_eq_add_neg] at hmid
    rw [hmid]
    exact (midpoint_sq_mul_lt_iff _ _ _).mpr hbelow
  · have hmid := binary32Value_add_half_ulp hpos 1
    rw [Int.cast_one, one_mul] at hmid
    rw [hmid]
    exact (lt_midpoint_sq_mul_iff _ _ _).mpr habove

end Sys2Proof.Machine
end

section
/-! PROOFS about the layout of words and samples in memory (20_memory.md R66): laying out and reading back are inverse. -/

namespace Sys2Proof

/-- The bytes of a word, weighted by their places, add up to it. -/
theorem toNat_eq_sum_of_bytes (w : Word) : w.toNat = (w.extractLsb' 0 8).toNat + 2 ^ 8 * (w.extractLsb' 8 8).toNat +
    2 ^ 16 * (w.extractLsb' 16 8).toNat + 2 ^ 24 * (w.extractLsb' 24 8).toNat := by
  simp only [BitVec.extractLsb'_toNat, Nat.shiftRight_eq_div_pow]
  have hw : w.toNat < 2 ^ 32 := w.isLt
  omega

/-- The bytes of a word, joined from the highest address down, are the word. -/
theorem append_bytes (w : Word) :
    (w.extractLsb' 24 8 ++ w.extractLsb' 16 8 ++ w.extractLsb' 8 8 ++ w.extractLsb' 0 8 : BitVec 32) = w := by
  have hhigh : w.extractLsb' 24 8 ++ w.extractLsb' 16 8 = w.extractLsb' 16 16 :=
    BitVec.extractLsb'_append_extractLsb'_eq_extractLsb' rfl
  have hmid : w.extractLsb' 16 16 ++ w.extractLsb' 8 8 = w.extractLsb' 8 24 :=
    BitVec.extractLsb'_append_extractLsb'_eq_extractLsb' rfl
  have hlow : w.extractLsb' 8 24 ++ w.extractLsb' 0 8 = w.extractLsb' 0 32 :=
    BitVec.extractLsb'_append_extractLsb'_eq_extractLsb' rfl
  rw [hhigh, hmid, hlow, BitVec.extractLsb'_eq_self]

@[simp] theorem wordsOfBytes_wordBytes_append (w : Word) (bs : List Byte) :
    wordsOfBytes (wordBytes w ++ bs) = w :: wordsOfBytes bs :=
  congrArg (· :: wordsOfBytes bs) (append_bytes w)

theorem wordsOfBytes_flatMap_wordBytes (ws : List Word) : wordsOfBytes (ws.flatMap wordBytes) = ws := by
  induction ws with
  | nil => rfl
  | cons w ws ih => rw [List.flatMap_cons, wordsOfBytes_wordBytes_append, ih]

/-- A sample is laid out as the two words of its parts are. -/
theorem sampleBytes_eq_flatMap (z : Sample) : sampleBytes z = [z.re, z.im].flatMap wordBytes := rfl

theorem wordsOfBytes_flatMap_sampleBytes (zs : List Sample) :
    wordsOfBytes (zs.flatMap sampleBytes) = zs.flatMap fun z => [z.re, z.im] := by
  have hwords : zs.flatMap sampleBytes = (zs.flatMap fun z => [z.re, z.im]).flatMap wordBytes := by
    rw [List.flatMap_assoc]
    exact List.flatMap_congr fun z _ => sampleBytes_eq_flatMap z
  rw [hwords, wordsOfBytes_flatMap_wordBytes]

/-- Settles O5: the bytes of a word make the word up, and words and samples are read back one after another. -/
theorem byteLayoutRoundTrip : Obligations.ByteLayoutRoundTrip :=
  ⟨fun w => ⟨_, _, _, _, rfl, toNat_eq_sum_of_bytes w⟩, fun _ => ⟨rfl, rfl, rfl⟩, wordsOfBytes_flatMap_wordBytes,
    wordsOfBytes_flatMap_sampleBytes⟩

end Sys2Proof
end

section
/-! PROOFS about a step that runs a command (20_memory.md R71), and about what commands leave of the configuration
(20_memory.md R74, 10_state.md R34). -/

namespace Sys2Proof.Machine

open Sys2Proof

/-! ## A command at the port -/

theorem step_of_decode_instr {s : State} {i : Instr} {rest : List Word} (pin : s.resetPin = false)
    (fetched : decode s.port = .instr i rest) : step s = exec i { s with port := rest } := by
  simp [step, pin, fetched]

/-- Settles O7: without a reset the step is the decoded command's, and decoding builds well-formed commands only. -/
theorem stepRunsDecodedCommand : Obligations.StepRunsDecodedCommand :=
  fun _ _ _ pin fetched => ⟨step_of_decode_instr pin fetched, wellFormed_of_decode fetched⟩

/-! ## FR's configuration -/

/-- `v` has the configuration of `u`: the registers that FR_CONFIG sets and no frame changes, and CONFIGURED (R34). -/
def FrUnit.SameConfig (u v : FrUnit) : Prop :=
  v.cfg = u.cfg ∧ v.fecBlocks = u.fecBlocks ∧ v.tsRate = u.tsRate ∧ v.kbch = u.kbch ∧
    isConfigured v.status = isConfigured u.status

theorem FrUnit.SameConfig.refl (u : FrUnit) : u.SameConfig u := ⟨rfl, rfl, rfl, rfl, rfl⟩

theorem FrUnit.SameConfig.payloadByte {u v : FrUnit} (h : u.SameConfig v) (b : Byte) :
    u.SameConfig (payloadByte v b).unit := by
  simpa [FrUnit.SameConfig] using h

theorem FrUnit.SameConfig.advanceFecBlock {u v : FrUnit} (h : u.SameConfig v) : u.SameConfig (advanceFecBlock v) := by
  rw [advanceFecBlock_eq]; exact h

theorem FrUnit.SameConfig.frameRun {u v : FrUnit} (h : u.SameConfig v) (input : List Byte) :
    u.SameConfig (frameRun v input).unit :=
  (payloadRun_invariant (fun _ b hv => hv.payloadByte b) h).advanceFecBlock

/-- Frames leave the configuration (R34). -/
theorem FrUnit.sameConfig_framesRun (u : FrUnit) (k : Nat) (input : List Byte) :
    u.SameConfig (framesRun k u input).unit :=
  framesRun_invariant (fun _ bs hv => hv.frameRun bs) (.refl u)

/-! ## What a fault leaves of the units -/

/-- A fault changes nothing of unit FR but its fault record (60_exceptions.md R231). -/
theorem faultCommand_fr_frame (s : State) (op : Opcode) (code : FaultCode) :
    (faultCommand op code s).fr = { s.fr with status := (faultCommand op code s).fr.status } ∧
    isConfigured (faultCommand op code s).fr.status = isConfigured s.fr.status ∧
    isSyncErr (faultCommand op code s).fr.status = isSyncErr s.fr.status := by
  rw [faultCommand_fr]; split <;> simp

/-- A fault changes nothing of unit SY but its fault record (60_exceptions.md R231). -/
theorem faultCommand_sy_frame (s : State) (op : Opcode) (code : FaultCode) :
    (faultCommand op code s).sy = { s.sy with status := (faultCommand op code s).sy.status } ∧
    isConfigured (faultCommand op code s).sy.status = isConfigured s.sy.status := by
  rw [faultCommand_sy]; split <;> simp

/-! ## What a command leaves of the units -/

section Executes
variable {i : Instr} {s t : State} (h : Executes s i t)
include h

theorem Executes.fr_sameConfig (hconfig : i.opcode ≠ .frConfig) (hreset : i.opcode ≠ .frReset) :
    s.fr.SameConfig t.fr := by
  cases h with
  | fault i code =>
    obtain ⟨hfr, hconf, -⟩ := faultCommand_fr_frame s i.opcode code
    rw [FrUnit.SameConfig, hconf, hfr]
    exact ⟨rfl, rfl, rfl, rfl, rfl⟩
  | frConfig => exact absurd rfl hconfig
  | frReset => exact absurd rfl hreset
  | frWork => exact s.fr.sameConfig_framesRun _ _
  | nop | rdreg | rdtab | frForecast | syConfig | syForecast | syWork | syReset => exact .refl s.fr

theorem Executes.fr_frame (hconfig : i.opcode ≠ .frConfig) (hwork : i.opcode ≠ .frWork) (hreset : i.opcode ≠ .frReset) :
    t.fr = { s.fr with status := t.fr.status } ∧ isSyncErr t.fr.status = isSyncErr s.fr.status := by
  cases h with
  | fault i code =>
    obtain ⟨hfr, -, hsync⟩ := faultCommand_fr_frame s i.opcode code
    exact ⟨hfr, hsync⟩
  | frConfig => exact absurd rfl hconfig
  | frWork => exact absurd rfl hwork
  | frReset => exact absurd rfl hreset
  | nop | rdreg | rdtab | frForecast | syConfig | syForecast | syWork | syReset => exact ⟨rfl, rfl⟩

theorem Executes.sy_frame (hconfig : i.opcode ≠ .syConfig) (hreset : i.opcode ≠ .syReset) :
    t.sy = { s.sy with status := t.sy.status } ∧ isConfigured t.sy.status = isConfigured s.sy.status := by
  cases h with
  | fault i code => exact faultCommand_sy_frame s i.opcode code
  | syConfig => exact absurd rfl hconfig
  | syReset => exact absurd rfl hreset
  | nop | rdreg | rdtab | frConfig | frForecast | frWork | frReset | syForecast | syWork => exact ⟨rfl, rfl⟩

end Executes

/-- Settles O16, over the ways in which a command leads to a next state. -/
theorem configurationIsImmutable : Obligations.ConfigurationIsImmutable := by
  intro i s t h
  have hexec : Executes s i t := executes_of_exec h
  exact ⟨hexec.fr_sameConfig, hexec.fr_frame, hexec.sy_frame⟩

end Sys2Proof.Machine
end

section
/-! PROOFS that FR_WORK reads only the input it consumes (20_memory.md R61). A payload, a frame and a run of frames each
take from the front of the input the bytes that need(N) counts (40_framer.md R123), so what follows those bytes is only
carried along as the rest. -/

namespace Sys2Proof.Machine

open Sys2Proof

/-! ## The bytes of a payload -/

/-- A slot that drops no sync byte takes its own byte (R123). -/
theorem needSlots_succ {hem : Bool} {c : Nat} (h : ¬(c = 0 ∧ hem = true)) (slots : Nat) :
    needSlots hem (slots + 1) c =
      ((needSlots hem slots ((c + 1) % packetSize)).1 + 1, (needSlots hem slots ((c + 1) % packetSize)).2) := by
  simp [needSlots, h, Nat.add_comm]

/-- The dropped sync byte comes before the byte of its slot (R123). -/
theorem needSlots_succ_syncByte (slots : Nat) : needSlots true (slots + 1) 0 =
    ((needSlots true (slots + 1) 1).1 + 1, (needSlots true (slots + 1) 1).2) := by
  rw [needSlots_succ (c := 1) (by decide) slots]
  simp +arith [needSlots, packetSize]

section PayloadByte
variable (u : FrUnit) (b : Byte)

theorem payloadByte_emitted_length :
    (payloadByte u b).emitted.toList.length = if u.count.toNat = 0 ∧ frHem u.cfg = true then 0 else 1 := by
  have hcount : u.count = 0 ↔ u.count.toNat = 0 := BitVec.toNat_eq
  unfold payloadByte
  split_ifs <;> simp_all

/-- The need of open slots (R123) is one byte, and the need of the slots that this byte leaves open (R132). -/
theorem needSlots_payloadByte {slots : Nat} (hslots : slots ≠ 0) : needSlots (frHem u.cfg) slots u.count.toNat =
    let later := needSlots (frHem u.cfg) (slots - (payloadByte u b).emitted.toList.length)
      (payloadByte u b).unit.count.toNat
    (later.1 + 1, later.2) := by
  obtain ⟨slots, rfl⟩ := Nat.exists_eq_succ_of_ne_zero hslots
  rw [payloadByte_emitted_length, payloadByte_count, toNat_nextCount]
  split
  · next h =>
    obtain ⟨hcount, hhem⟩ := h
    rw [hcount, hhem]
    exact needSlots_succ_syncByte slots
  · next h => exact needSlots_succ h slots

end PayloadByte

section PayloadRun
variable {u : FrUnit} {slots : Nat}

theorem payloadRun_zero (u : FrUnit) (input : List Byte) :
    payloadRun u 0 input = { unit := u, bytes := [], events := [], rest := input } := by
  cases input <;> rfl

theorem payloadRun_cons (hslots : slots ≠ 0) (b : Byte) (bs : List Byte) : payloadRun u slots (b :: bs) =
    let st := payloadByte u b
    let tail := payloadRun st.unit (slots - st.emitted.toList.length) bs
    { tail with bytes := st.emitted.toList ++ tail.bytes, events := st.events ++ tail.events } := by
  rw [payloadRun, if_neg hslots]

/-- Open slots need a byte. -/
theorem needSlots_pos (hem : Bool) (hslots : slots ≠ 0) (c : Nat) : 0 < (needSlots hem slots c).1 := by
  obtain ⟨slots, rfl⟩ := Nat.exists_eq_succ_of_ne_zero hslots
  simp only [needSlots]
  omega

/-- A payload leaves the input behind the bytes it needs. -/
theorem payloadRun_rest (u : FrUnit) (slots : Nat) (input : List Byte) : (payloadRun u slots input).rest =
    input.drop (needSlots (frHem u.cfg) slots u.count.toNat).1 := by
  induction input generalizing u slots with
  | nil => exact List.drop_nil.symm
  | cons b bs ih =>
    by_cases hslots : slots = 0
    · rw [hslots, payloadRun_zero]; rfl
    · rw [payloadRun_cons hslots, needSlots_payloadByte u b hslots]
      simp [ih]

/-- The induction over the bytes of a payload that finds the bytes it needs: no slot is open, or a byte is taken. -/
theorem payloadRun_induction {P : FrUnit → Nat → List Byte → Prop} (filled : ∀ u input, P u 0 input)
    (byte : ∀ u slots b bs, slots ≠ 0 →
      P (payloadByte u b).unit (slots - (payloadByte u b).emitted.toList.length) bs → P u slots (b :: bs))
    {input : List Byte} (h : (needSlots (frHem u.cfg) slots u.count.toNat).1 ≤ input.length) : P u slots input := by
  induction input generalizing u slots with
  | nil =>
    by_cases hslots : slots = 0
    · exact hslots ▸ filled u []
    · exact absurd h (Nat.not_le.mpr (needSlots_pos (frHem u.cfg) hslots u.count.toNat))
  | cons b bs ih =>
    by_cases hslots : slots = 0
    · exact hslots ▸ filled u (b :: bs)
    · rw [needSlots_payloadByte u b hslots] at h
      exact byte u slots b bs hslots (ih (by simpa using h))

/-- The counter after a payload that finds the bytes it needs (R123). -/
theorem payloadRun_count {input : List Byte}
    (h : (needSlots (frHem u.cfg) slots u.count.toNat).1 ≤ input.length) :
    (payloadRun u slots input).unit.count.toNat = (needSlots (frHem u.cfg) slots u.count.toNat).2 := by
  refine payloadRun_induction (P := fun u slots input => (payloadRun u slots input).unit.count.toNat =
    (needSlots (frHem u.cfg) slots u.count.toNat).2) (fun u input => ?_) (fun u slots b bs hslots ih => ?_) h
  · rw [payloadRun_zero]; rfl
  · rw [payloadRun_cons hslots, needSlots_payloadByte u b hslots]
    simpa using ih

/-- What stands behind the bytes a payload needs is only left behind. -/
theorem payloadRun_append {taken : List Byte} (rest : List Byte)
    (h : (needSlots (frHem u.cfg) slots u.count.toNat).1 ≤ taken.length) :
    payloadRun u slots (taken ++ rest) =
      { payloadRun u slots taken with rest := (payloadRun u slots taken).rest ++ rest } := by
  refine payloadRun_induction (P := fun u slots taken => payloadRun u slots (taken ++ rest) =
    { payloadRun u slots taken with rest := (payloadRun u slots taken).rest ++ rest }) (fun u taken => ?_)
    (fun u slots b bs hslots ih => ?_) h
  · rw [payloadRun_zero, payloadRun_zero]
  · simp only [List.cons_append, payloadRun_cons hslots, ih]

end PayloadRun

/-! ## The bytes of a frame -/

/-- The bytes that the next frame takes (R123). -/
def FrUnit.frameNeed (u : FrUnit) : Nat := (needSlots (frHem u.cfg) (frameSlots u) u.count.toNat).1

/-- The bytes that the next k frames take (R123). -/
def FrUnit.framesNeed (u : FrUnit) (k : Nat) : Nat := needFrames u k u.count.toNat u.fecBlock.toNat

theorem need_eq_framesNeed (u : FrUnit) (n : Nat) : need u n = u.framesNeed (n / u.kbch.toNat) := rfl

theorem frameRun_rest (u : FrUnit) (input : List Byte) : (frameRun u input).rest = input.drop u.frameNeed :=
  payloadRun_rest u (frameSlots u) input

theorem frameRun_append {u : FrUnit} {taken : List Byte} (rest : List Byte) (h : u.frameNeed ≤ taken.length) :
    frameRun u (taken ++ rest) = { frameRun u taken with rest := (frameRun u taken).rest ++ rest } := by
  simp only [frameRun, payloadRun_append rest h]

/-! ## The bytes of several frames -/

/-- The end of a frame leaves the packet position (R135). -/
@[simp] theorem advanceFecBlock_count (u : FrUnit) : (advanceFecBlock u).count = u.count := by
  rw [advanceFecBlock_eq]

/-- The need of frames depends on the unit's configuration alone, and on the two counters it is given (R123). -/
theorem FrUnit.SameConfig.needFrames_eq {u v : FrUnit} (h : u.SameConfig v) (k c f : Nat) :
    needFrames v k c f = needFrames u k c f := by
  obtain ⟨hcfg, hblocks, -, hkbch, -⟩ := h
  induction k generalizing c f with
  | zero => rfl
  | succ k ih => simp only [needFrames, hcfg, hblocks, hkbch, ih]

/-- The FEC-block counter of a working unit as a number (R135). -/
theorem toNat_fecBlock_advanceFecBlock {u : FrUnit} (h : u.Working) : (advanceFecBlock u).fecBlock.toNat =
    if frInband u.cfg then (u.fecBlock.toNat + 1) % u.fecBlocks.toNat else u.fecBlock.toNat := by
  obtain ⟨hl, hconf⟩ := h
  obtain ⟨-, -, hblock⟩ := hl.configured hconf
  unfold advanceFecBlock
  split
  · next hin =>
    have hpos : 0 < u.fecBlocks.toNat := Nat.zero_lt_of_lt (hblock hin)
    exact Nat.mod_eq_of_lt ((Nat.mod_lt _ hpos).trans u.fecBlocks.isLt)
  · rfl

/-- The need of frames, one frame taken off (R123). -/
theorem framesNeed_eq_add (u : FrUnit) (k : Nat) : u.framesNeed (k + 1) = u.frameNeed +
    needFrames u k (needSlots (frHem u.cfg) (frameSlots u) u.count.toNat).2
      (if frInband u.cfg then (u.fecBlock.toNat + 1) % u.fecBlocks.toNat else u.fecBlock.toNat) := by
  have hzero : u.fecBlock = 0 ↔ u.fecBlock.toNat = 0 := BitVec.toNat_eq
  simp only [FrUnit.framesNeed, FrUnit.frameNeed, needFrames, frameSlots, frameDfl, framePadding, hzero]

/-- The need of frames is that of the first one, and that of the others from the unit it leaves (R123). -/
theorem framesNeed_succ {u : FrUnit} (h : u.Working) (k : Nat) {input : List Byte}
    (henough : u.frameNeed ≤ input.length) :
    u.framesNeed (k + 1) = u.frameNeed + (frameRun u input).unit.framesNeed k := by
  have hsame : u.SameConfig (frameRun u input).unit := (FrUnit.SameConfig.refl u).frameRun input
  have hcount : (frameRun u input).unit.count.toNat = (needSlots (frHem u.cfg) (frameSlots u) u.count.toNat).2 := by
    simpa [frameRun] using payloadRun_count henough
  have hblock : (frameRun u input).unit.fecBlock.toNat =
      if frInband u.cfg then (u.fecBlock.toNat + 1) % u.fecBlocks.toNat else u.fecBlock.toNat := by
    have hbody : (payloadRun u (frameSlots u) input).unit.Working :=
      payloadRun_invariant (fun _ b hu => hu.payloadByte b) h
    simpa [frameRun] using toNat_fecBlock_advanceFecBlock hbody
  rw [framesNeed_eq_add, FrUnit.framesNeed, hsame.needFrames_eq, hcount, hblock]

/-- What stands behind the bytes that frames need is only left behind. -/
theorem framesRun_append {u : FrUnit} (h : u.Working) {k : Nat} {taken : List Byte} (rest : List Byte)
    (henough : u.framesNeed k ≤ taken.length) :
    framesRun k u (taken ++ rest) = { framesRun k u taken with rest := (framesRun k u taken).rest ++ rest } := by
  induction k generalizing u taken with
  | zero => rfl
  | succ k ih =>
    have hfirst : u.frameNeed ≤ taken.length := by
      rw [framesNeed_eq_add] at henough
      exact Nat.le_of_add_right_le henough
    have hlater : (frameRun u taken).unit.framesNeed k ≤ (frameRun u taken).rest.length := by
      rw [framesNeed_succ h k hfirst] at henough
      rw [frameRun_rest, List.length_drop]
      omega
    simp only [framesRun, frameRun_append rest hfirst, ih (h.frameRun taken) hlater]

/-! ## The command -/

/-- What FR_WORK has checked when it completes (R124 to R126). -/
theorem frWorkCheck_eq_none {n : Nat} {b : Buffers Byte} {u : FrUnit} : frWorkCheck n b u = none ↔
    Ready u.status ∧ n % u.kbch.toNat = 0 ∧ n ≤ b.output.length ∧ need u n ≤ b.input.length := by
  rw [← readyCheck_eq_none]
  unfold frWorkCheck
  split
  · next hready => simp [hready]
  · next hready => simp only [hready, check_eq_none, not_not, Nat.not_lt, and_true, true_and]

/-- The state to which FR_WORK leads when its checks pass (R124). -/
def frWorked (n : Word) (s : State) : State :=
  let run := frWorkRun n.toNat (handedFr s) s.fr
  respond (.ok [BitVec.ofNat 32 (frConsumed (handedFr s) run), n])
    { logEvents run.events (completeFr (elements run.bits) s) with fr := run.unit }

theorem exec_frWork_of_passed {n : Word} {s : State} (passed : frWorkCheck n.toNat (handedFr s) s.fr = none) :
    exec (.frWork n) s = .next (frWorked n s) := by
  simp only [exec, execFrWork, passed, answerOk, frWorked]

/-- FR_WORK that answers `Ok` has passed its checks (60_exceptions.md R231). -/
theorem frWork_passed_of_ok {n : Word} {s t : State} {results : List Word} (h : exec (.frWork n) s = .next t)
    (hok : t.responses = s.responses ++ [.ok results]) : frWorkCheck n.toNat (handedFr s) s.fr = none := by
  cases executes_of_exec h with
  | fault i code => simp [faultCommand_eq] at hok
  | frWork passed => exact passed

/-- The state with one pair of buffers handed over for FR_WORK, whose host writes nothing meanwhile. -/
def State.withFrBuffers (input output : List Byte) (s : State) : State := { s with frBufs := [⟨input, output, []⟩] }

/-- FR_WORK on more input than it needs, from its run on the bytes it needs: what follows them is handed back with the
input, and enters nothing else. -/
theorem frWorked_append {n : Word} {s : State} {taken : List Byte} (rest output : List Byte) (hs : s.fr.Working)
    (henough : need s.fr n.toNat ≤ taken.length) :
    frWorked n (s.withFrBuffers (taken ++ rest) output) =
      { frWorked n (s.withFrBuffers taken output) with
        frReturned := s.frReturned ++ [⟨taken ++ rest,
          emitInto (elements (framesRun (n.toNat / s.fr.kbch.toNat) s.fr taken).bits) output, []⟩] } := by
  rw [need_eq_framesNeed] at henough
  have hrun := framesRun_append hs rest henough
  simp [frWorked, frWorkRun, frConsumed, State.withFrBuffers, handedFr, respond, hrun, Nat.add_sub_add_right]

/-- Settles O32: the run on the bytes needed gives all but the input handed back. -/
theorem frWorkIgnoresUnreadInput : Obligations.FrWorkIgnoresUnreadInput := by
  intro n s t taken rest rest' output hlegal htaken h hok
  have passed : frWorkCheck n.toNat ⟨taken ++ rest, output, []⟩ s.fr = none := frWork_passed_of_ok h hok
  obtain ⟨hready, hmod, hcap, -⟩ := frWorkCheck_eq_none.mp passed
  have passed' : frWorkCheck n.toNat ⟨taken ++ rest', output, []⟩ s.fr = none :=
    frWorkCheck_eq_none.mpr ⟨hready, hmod, hcap, by simp [htaken]⟩
  have hworking : s.fr.Working := ⟨hlegal, hready.1⟩
  have happend := fun input => frWorked_append (n := n) input output hworking htaken.ge
  have ht : frWorked n (s.withFrBuffers (taken ++ rest) output) = t :=
    Host.Outcome.next.inj ((exec_frWork_of_passed passed).symm.trans h)
  rw [happend rest] at ht
  subst ht
  exact ⟨_, rfl, (exec_frWork_of_passed passed').trans (congrArg _ (happend rest'))⟩

end Sys2Proof.Machine
end

section
/-! PROOFS that decoding and encoding are inverse (30_encoding.md R80, R83 to R86). A command's words are its command
word and its operand words, and both directions are one law each: building a command from its own immediate and operands
gives it back, and the words of a built command are those it was built from. -/

namespace Sys2Proof

/-! ## What the decoder answers -/

section Decode
variable {w : Word} {ws : List Word}

/-- A reserved opcode is rejected by its word alone (R86). -/
theorem decode_of_unlisted (hop : opcodeOf (opcField w) = none) : decode (w :: ws) = .illegal (opcField w) ws := by
  simp only [decode, hop]

/-- A listed opcode gives the number of operand words, and its must-be-zero bits are checked once they are there (R80,
R86). -/
theorem decode_of_listed {op : Opcode} (hop : opcodeOf (opcField w) = some op) : decode (w :: ws) =
    if ws.length < operandCount op then .wait
    else if imm24Field w &&& mustBeZero op = 0 then
      .instr (buildInstr op (imm24Field w) (ws.take (operandCount op))) (ws.drop (operandCount op))
    else .reserved op (ws.drop (operandCount op)) := by
  simp only [decode, hop]

end Decode

/-- The words that decode to a command: a listed opcode, its operand words, and no must-be-zero bit set. -/
theorem decode_eq_instr {words rest : List Word} {i : Instr} (h : decode words = .instr i rest) :
    ∃ w ws op, words = w :: ws ∧ opcodeOf (opcField w) = some op ∧ operandCount op ≤ ws.length ∧
      imm24Field w &&& mustBeZero op = 0 ∧ i = buildInstr op (imm24Field w) (ws.take (operandCount op)) ∧
      rest = ws.drop (operandCount op) := by
  cases words with
  | nil => cases h
  | cons w ws =>
    cases hop : opcodeOf (opcField w) with
    | none => rw [decode_of_unlisted hop] at h; cases h
    | some op =>
      rw [decode_of_listed hop] at h
      split_ifs at h with hlen himm
      obtain ⟨rfl, rfl⟩ := Fetched.instr.inj h
      exact ⟨w, ws, op, rfl, hop, Nat.not_lt.mp hlen, himm, rfl, rfl⟩

@[simp] theorem opcode_buildInstr (op : Opcode) (imm : BitVec 24) (args : List Word) :
    (buildInstr op imm args).opcode = op := by
  cases op <;> rfl

/-- Settles O4: the opcode alone decides between waiting and taking its operand words. -/
theorem opcodeGivesLength : Obligations.OpcodeGivesLength := by
  intro w ws op hop
  rw [decode_of_listed hop]
  refine ⟨fun hfew => if_pos hfew, fun henough => ?_⟩
  rw [if_neg (Nat.not_lt.mpr henough)]
  split
  · exact .inl ⟨_, rfl, opcode_buildInstr op _ _⟩
  · exact .inr rfl

/-! ## The words of a command -/

/-- The immediate of a command (R82, R84). -/
def Instr.imm24 : Instr → BitVec 24
  | .rdreg reg => reg.zeroExtend 24
  | .rdtab tab idx => tab ++ idx
  | .nop | .frConfig _ _ _ | .frForecast _ | .frWork _ | .frReset => 0
  | .syConfig _ _ _ | .syForecast _ | .syWork _ | .syReset => 0

/-- The operand words of a command (R83, R85). -/
def Instr.operandWords : Instr → List Word
  | .frConfig w1 w2 w3 => [w1, w2, w3]
  | .syConfig w1 w2 window => w1 :: w2 :: window
  | .frForecast n | .frWork n | .syForecast n | .syWork n => [n]
  | .nop | .frReset | .syReset | .rdreg _ | .rdtab _ _ => []

/-- A command is its command word and its operand words (R80). -/
theorem encode_eq_cons (i : Instr) : encode i = commandWord i.opcode i.imm24 :: i.operandWords := by
  cases i <;> rfl

/-- A well-formed command has the number of operand words its opcode gives (R83). -/
theorem length_operandWords {i : Instr} (h : i.WellFormed) : i.operandWords.length = operandCount i.opcode := by
  cases i with
  | syConfig w1 w2 window =>
    simpa [encode_eq_cons, Nat.add_comm] using Laws.EncodeLength.syConfig w1 w2 window h
  | _ => rfl

/-- A command's own immediate has no must-be-zero bit set (R84). -/
theorem imm24_and_mustBeZero (i : Instr) : i.imm24 &&& mustBeZero i.opcode = 0 := by
  cases i with
  | rdreg reg => revert reg; decide
  | _ => simp [Instr.imm24, Instr.opcode, mustBeZero]

/-- A command is the one its own immediate and operand words stand for (R82 to R85). -/
theorem buildInstr_self (i : Instr) : buildInstr i.opcode i.imm24 i.operandWords = i := by
  cases i with
  | rdreg reg =>
    have hreg : (reg.zeroExtend 24).extractLsb' 0 8 = reg := by revert reg; decide
    exact congrArg Instr.rdreg hreg
  | rdtab tab idx =>
    have htab : (tab ++ idx).extractLsb' 16 8 = tab := BitVec.extractLsb'_append_eq_left
    have hidx : (tab ++ idx).extractLsb' 0 16 = idx := BitVec.extractLsb'_append_eq_right
    exact congrArg₂ Instr.rdtab htab hidx
  | _ => rfl

/-- Settles O1: the decoder splits the words where the command's end, and builds the command again from its own. -/
theorem decodeOfEncode : Obligations.DecodeOfEncode := by
  intro i rest hwf
  have hlen : i.operandWords.length = operandCount i.opcode := length_operandWords hwf
  have hop : opcodeOf (opcField (commandWord i.opcode i.imm24)) = some i.opcode := by simp
  rw [encode_eq_cons, List.cons_append, decode_of_listed hop, imm24Field_commandWord,
    if_neg (by simp [hlen]), if_pos (imm24_and_mustBeZero i), List.take_left' hlen, List.drop_left' hlen,
    buildInstr_self]

/-! ## One encoding for each command -/

/-- A command word is its two fields (R80). -/
theorem commandWord_of_opcodeOf {w : Word} {op : Opcode} (hop : opcodeOf (opcField w) = some op) :
    commandWord op (imm24Field w) = w := by
  rw [commandWord, opcodeByte_of_opcodeOf hop]
  have hjoin : opcField w ++ imm24Field w = w.extractLsb' 0 32 :=
    BitVec.extractLsb'_append_extractLsb'_eq_extractLsb' rfl
  rw [hjoin, BitVec.extractLsb'_eq_self]

/-- RDREG's immediate is its low byte, if the bits above are 0 (R84). -/
theorem zeroExtend_low_byte {imm : BitVec 24} (himm : imm &&& 0xFFFF00 = 0) :
    (imm.extractLsb' 0 8).zeroExtend 24 = imm := by
  have hmask : ∀ k (hk : k < 24), (0xFFFF00 : BitVec 24)[k] = decide (8 ≤ k) := by decide
  ext k hk
  have hbit : (imm &&& 0xFFFF00)[k] = false := by rw [himm]; exact BitVec.getElem_zero hk
  rw [BitVec.getElem_and, hmask] at hbit
  by_cases hhigh : 8 ≤ k
  · have himm : imm[k] = false := by simpa [hhigh] using hbit
    simp [himm, Nat.not_lt.mpr hhigh]
  · simp [Nat.not_le.mp hhigh, BitVec.getLsbD_eq_getElem hk]

/-- A built command has the immediate it was built from, if no must-be-zero bit is set there (R84). -/
theorem imm24_buildInstr {op : Opcode} {imm : BitVec 24} (args : List Word) (himm : imm &&& mustBeZero op = 0) :
    (buildInstr op imm args).imm24 = imm := by
  cases op with
  | rdtab =>
    have hjoin : imm.extractLsb' 16 8 ++ imm.extractLsb' 0 16 = imm.extractLsb' 0 24 :=
      BitVec.extractLsb'_append_extractLsb'_eq_extractLsb' rfl
    exact hjoin.trans BitVec.extractLsb'_eq_self
  | rdreg => exact zeroExtend_low_byte himm
  | _ => exact himm.symm.trans BitVec.and_allOnes

/-- A built command has the operand words it was built from, if they are as many as its opcode gives (R83). -/
theorem operandWords_buildInstr {op : Opcode} (imm : BitVec 24) {args : List Word}
    (hargs : args.length = operandCount op) : (buildInstr op imm args).operandWords = args := by
  match op, args, hargs with
  | .frConfig, [_, _, _], _ | .syConfig, _ :: _ :: _, _ => rfl
  | .frForecast, [_], _ | .frWork, [_], _ | .syForecast, [_], _ | .syWork, [_], _ => rfl
  | .nop, [], _ | .frReset, [], _ | .syReset, [], _ | .rdreg, [], _ | .rdtab, [], _ => rfl

/-- Settles O2: the words of the command that decoding builds are the words it was built from. -/
theorem encodeOfDecode : Obligations.EncodeOfDecode := by
  intro words i rest h
  refine ⟨?_, wellFormed_of_decode h⟩
  obtain ⟨w, ws, op, rfl, hop, hlen, himm, rfl, rfl⟩ := decode_eq_instr h
  have hargs : (ws.take (operandCount op)).length = operandCount op := List.length_take_of_le hlen
  rw [encode_eq_cons, opcode_buildInstr, imm24_buildInstr _ himm, operandWords_buildInstr _ hargs,
    commandWord_of_opcodeOf hop, List.cons_append, List.take_append_drop]

end Sys2Proof
end

section
/-! PROOFS about what the words at the port lead to: a reserved opcode, a nonzero must-be-zero bit (30_encoding.md R86),
and the one response of every command (30_encoding.md R81). -/

namespace Sys2Proof.Machine

open Sys2Proof

/-! ## Rejected words -/

section Rejected
variable {s : State} {w : Word} {ws : List Word}

/-- A reserved opcode at the port is rejected, and its word taken (30_encoding.md R86). -/
theorem step_of_unlisted (pin : s.resetPin = false) (hport : s.port = w :: ws) (hop : opcodeOf (opcField w) = none) :
    step s = .next (rejectIllegal (opcField w) { s with port := ws }) := by
  have fetched : decode s.port = .illegal (opcField w) ws := by rw [hport, decode_of_unlisted hop]
  simp [step, pin, fetched]

/-- A nonzero must-be-zero bit at the port is rejected, and the words of its opcode taken (30_encoding.md R86). -/
theorem step_of_reserved {op : Opcode} (pin : s.resetPin = false) (hport : s.port = w :: ws)
    (hop : opcodeOf (opcField w) = some op) (hlen : operandCount op ≤ ws.length)
    (himm : imm24Field w &&& mustBeZero op ≠ 0) :
    step s = .next (faultCommand op .reservedBits { s with port := ws.drop (operandCount op) }) := by
  have fetched : decode s.port = .reserved op (ws.drop (operandCount op)) := by
    rw [hport, decode_of_listed hop, if_neg hlen.not_gt, if_neg himm]
  simp [step, pin, fetched, rejectReserved]

end Rejected

/-- The listed opcode numbers lie outside three ranges (30_encoding.md R83, R86). -/
theorem opcodeOf_eq_none_iff : ∀ b : Byte, opcodeOf b = none ↔
    (0x05 ≤ b.toNat ∧ b.toNat ≤ 0x10) ∨ (0x15 ≤ b.toNat ∧ b.toNat ≤ 0x1F) ∨ 0x22 ≤ b.toNat := by
  decide

/-- Settles O9: the fault of a reserved opcode names no unit, so only the log and the responses grow. -/
theorem illegalOpcodeFaults : Obligations.IllegalOpcodeFaults := by
  refine ⟨opcodeOf_eq_none_iff, fun s w ws pin hport hop => ?_⟩
  rw [step_of_unlisted pin hport hop, rejectIllegal, raiseFault_eq]
  rfl

/-! ## The buffers of a command that faults -/

section Fault
variable (s : State) (code : FaultCode)

@[simp] theorem faultCommand_port (op : Opcode) : (faultCommand op code s).port = s.port := by
  simp [faultCommand_eq]
@[simp] theorem faultCommand_responses (op : Opcode) :
    (faultCommand op code s).responses = s.responses ++ [.fault code] := by
  rw [faultCommand_eq]
@[simp] theorem faultCommand_resetPin (op : Opcode) : (faultCommand op code s).resetPin = s.resetPin := by
  simp [faultCommand_eq]

/-- A fault of another command than a work command touches no buffer (20_memory.md R60). -/
theorem buffersUntouched_faultCommand {op : Opcode} (hfr : op ≠ .frWork) (hsy : op ≠ .syWork) :
    BuffersUntouched s (faultCommand op code s) := by
  rw [faultCommand_eq, spoilBuffers_of_ne s hfr hsy]
  exact ⟨rfl, rfl, rfl, rfl, rfl⟩

/-- A FR_WORK that faults hands its buffers back with unspecified output (20_memory.md R69). -/
theorem frHandedBack_faultCommand : FrHandedBack s (faultCommand .frWork code s)
    (freeAll (Config.freeByte s.draws) (handedFr s).output) :=
  ⟨length_freeAll _ _, rfl, rfl, rfl, rfl, rfl⟩

/-- A SY_WORK that faults hands its buffers back with unspecified output (20_memory.md R69). -/
theorem syHandedBack_faultCommand : SyHandedBack s (faultCommand .syWork code s)
    (freeAll (Config.freeSample s.draws) (handedSy s).output) :=
  ⟨length_freeAll _ _, rfl, rfl, rfl, rfl, rfl⟩

end Fault

/-! What becomes of the buffers does not depend on the words at the port. -/

section Port
variable {s t : State} {ws : List Word}

theorem BuffersUntouched.of_withPort (h : BuffersUntouched { s with port := ws } t) : BuffersUntouched s t := { h with }
theorem FrHandedBack.of_withPort {out : List Byte} (h : FrHandedBack { s with port := ws } t out) :
    FrHandedBack s t out := { h with }
theorem SyHandedBack.of_withPort {out : List Sample} (h : SyHandedBack { s with port := ws } t out) :
    SyHandedBack s t out := { h with }

end Port

/-- Settles O10: the step is the fault of the named command, on the state with its words taken. -/
theorem reservedBitsFault : Obligations.ReservedBitsFault := by
  intro s w ws op pin hport hop hlen himm
  let taken : State := { s with port := ws.drop (operandCount op) }
  refine ⟨faultCommand op .reservedBits taken, step_of_reserved pin hport hop hlen himm, faultCommand_port taken _ op,
    faultCommand_log taken op _, faultCommand_responses taken _ op, faultCommand_fr taken op _,
    faultCommand_sy taken op _, (faultCommand_resetPin taken _ op).trans pin, fun hfr hsy => ?_, ?_, ?_⟩
  · exact .of_withPort (buffersUntouched_faultCommand taken _ hfr hsy)
  · rintro rfl
    exact ⟨_, .of_withPort (frHandedBack_faultCommand taken _)⟩
  · rintro rfl
    exact ⟨_, .of_withPort (syHandedBack_faultCommand taken _)⟩

/-! ## One response for each command -/

/-- A command that led to a next state has responded once, and left the port and the reset input (30_encoding.md R81). -/
theorem Executes.responds {i : Instr} {s t : State} (h : Executes s i t) :
    ∃ r, t.responses = s.responses ++ [r] ∧ t.port = s.port ∧ t.resetPin = s.resetPin := by
  cases h with
  | fault i code => exact ⟨.fault code, by simp⟩
  | nop | rdreg | rdtab | frConfig | frForecast | frWork | frReset | syConfig | syForecast | syWork | syReset =>
    exact ⟨_, rfl, rfl, rfl⟩

/-- Settles O11, over the ways in which a command leads to a next state. -/
theorem everyCommandResponds : Obligations.EveryCommandResponds := by
  intro i s
  obtain ⟨t, hexec, hexecutes⟩ := exists_exec_eq_next i s
  obtain ⟨r, hresponds⟩ := hexecutes.responds
  exact ⟨t, r, hexec, hresponds⟩

end Sys2Proof.Machine
end

section
/-! PROOFS about the packed configuration words of the assembler (30_encoding.md R87, 10_state.md R21 and R35): what is
packed is read back, whatever the codes are. -/

namespace Sys2Proof.Machine

open Sys2Proof

/-- A packed word of FR_CFG has no reserved bit, and each field holds the code put there (10_state.md R21). -/
theorem frCfg_fields : ∀ (size mode inband : BitVec 1) (rate : BitVec 3),
    let w : Word := (0 : BitVec 19) ++ inband ++ (0 : BitVec 3) ++ mode ++ (0 : BitVec 1) ++ rate ++ (0 : BitVec 3) ++ size
    w &&& frCfgReserved = 0 ∧ frShort w = (size == 1) ∧ frRate w = rate ∧ frHem w = (mode == 1) ∧
      frInband w = (inband == 1) := by
  decide

/-- A packed word of SY_CFG has no reserved bit, and each field holds the code put there (10_state.md R35). -/
theorem syCfg_fields : ∀ (mode : BitVec 1) (fft gi : BitVec 3),
    let w : Word := (0 : BitVec 21) ++ gi ++ (0 : BitVec 1) ++ fft ++ (0 : BitVec 3) ++ mode
    w &&& syCfgReserved = 0 ∧ syExtended w = (mode == 1) ∧ syFft w = fft ∧ syGi w = gi := by
  decide

/-! The two-valued operands are the bits of their fields (10_state.md R21 and R35). -/

theorem frameSizeCode_eq_one (size : FrameSize) : (frameSizeCode size == 1) = (size == .short) := by cases size <;> rfl
theorem inputModeCode_eq_one (mode : InputMode) : (inputModeCode mode == 1) = (mode == .hem) := by cases mode <;> rfl
theorem inbandCode_eq_one (mode : InbandMode) : (inbandCode mode == 1) = (mode == .typeb) := by cases mode <;> rfl
theorem carrierModeCode_eq_one (mode : CarrierMode) : (carrierModeCode mode == 1) = (mode == .extended) := by
  cases mode <;> rfl

/-- Settles O6: the lists of codes, and the fields of the packed words at the operands' codes. -/
theorem assembledConfigFields : Obligations.AssembledConfigFields := by
  refine ⟨rfl, rfl, rfl, rfl, fun size rate mode inband => ?_, fun mode fft gi => ?_⟩
  · rw [← frameSizeCode_eq_one, ← inputModeCode_eq_one, ← inbandCode_eq_one]
    exact frCfg_fields _ _ _ _
  · rw [← carrierModeCode_eq_one]
    exact syCfg_fields _ _ _

end Sys2Proof.Machine
end

section
/-! PROOFS about the layout of a frame (30_encoding.md R88 to R91): the fields of the header, and header, payload and
in-band field in their places. -/

namespace Sys2Proof.Machine

open Sys2Proof

/-! ## The header -/

/-- The header is the byte of mode fields, the other fields, and the checksum (R89). -/
theorem frameHeader_eq (u : FrUnit) : frameHeader u =
    [true, true, true, true, false, false, false, false] ++ (List.replicate 8 false ++
      (bitsMSB (0x05E0 : BitVec 16) ++ (bitsMSB (BitVec.ofNat 16 (frameDfl u)) ++ (bitsMSB (0x47 : BitVec 8) ++
        (bitsMSB (BitVec.ofNat 16 (frameSyncd u)) ++ bitsLSB (headerCrc (frHem u.cfg) (headerFields u))))))) := by
  simp only [frameHeader, headerFields, List.append_assoc]
  rfl

@[simp] theorem length_frameHeader (u : FrUnit) : (frameHeader u).length = 80 := by simp [frameHeader]

/-- The first 72 bits of the header are the fields that the checksum covers (R129). -/
theorem take_frameHeader (u : FrUnit) : (frameHeader u).take 72 = headerFields u :=
  List.take_left' (length_headerFields u)

/-- The flip of the checksum in high-efficiency mode, written as one XOR (R129). -/
theorem headerCrc_eq_xor (hem : Bool) (h : List Bool) :
    headerCrc hem h = headerCrcRegister h ^^^ (if hem then 0x80 else 0x00) := by
  cases hem <;> simp [headerCrc]

/-- Settles O33: each field is taken from its place in the header written out. -/
theorem headerLayout : Obligations.HeaderLayout := by
  intro u
  have hdfl : ((frameHeader u).drop 32).take 16 = bitsMSB (BitVec.ofNat 16 (frameDfl u)) := by
    simp [frameHeader_eq]
  have hsyncd : ((frameHeader u).drop 56).take 16 = bitsMSB (BitVec.ofNat 16 (frameSyncd u)) := by
    simp [frameHeader_eq, List.drop_append, List.drop_of_length_le]
  refine ⟨length_frameHeader u, ?_, ?_, ?_, hdfl, ?_, hsyncd, ?_⟩
  · rw [frameHeader_eq]; rfl
  · simp [frameHeader_eq, List.take_append]
  · simp [frameHeader_eq, List.drop_append]
  · simp [frameHeader_eq, List.drop_append, List.drop_of_length_le]
  · rw [take_frameHeader]
    exact (List.drop_left' (length_headerFields u)).trans (congrArg bitsLSB (headerCrc_eq_xor _ _))

/-! ## The sizes of a frame -/

/-- The smallest and the largest kbch, and the octet law (10_state.md R24). -/
theorem kbchTable_sizes : ∀ short rate, 5232 ≤ kbchTable short rate ∧ kbchTable short rate ≤ 53840 ∧
    kbchTable short rate % 8 = 0 := by
  decide

theorem FrUnit.Working.kbch_sizes {u : FrUnit} (h : u.Working) :
    5232 ≤ u.kbch.toNat ∧ u.kbch.toNat ≤ 53840 ∧ u.kbch.toNat % 8 = 0 := by
  obtain ⟨hlegal, hconf⟩ := h
  obtain ⟨hkbch, -, -⟩ := hlegal.configured hconf
  have hsizes := kbchTable_sizes (frShort u.cfg) (frRate u.cfg)
  rw [hkbch, BitVec.toNat_ofNat, Nat.mod_eq_of_lt (by omega)]
  exact hsizes

/-- Header, payload bytes and padding make up kbch (R127, R131). -/
theorem FrUnit.Working.frame_sizes {u : FrUnit} (h : u.Working) :
    8 * frameSlots u = frameDfl u ∧ 80 + frameDfl u + framePadding u = u.kbch.toNat := by
  obtain ⟨hmin, -, hmod⟩ := h.kbch_sizes
  have hpadding := framePadding_cases u
  simp only [frameSlots, frameDfl, headerBits]
  omega

/-- `need` of one frame is what the next frame takes (R123). -/
theorem FrUnit.Working.need_kbch {u : FrUnit} (h : u.Working) : need u u.kbch.toNat = u.frameNeed := by
  have hpos : 0 < u.kbch.toNat := Nat.lt_of_lt_of_le (by decide) h.kbch_sizes.1
  rw [need_eq_framesNeed, Nat.div_self hpos, framesNeed_eq_add, needFrames, Nat.add_zero]

/-! ## The payload -/

/-- A payload that finds the bytes it needs fills its slots (R131). -/
theorem payloadRun_length_bytes {u : FrUnit} {slots : Nat} {input : List Byte}
    (h : (needSlots (frHem u.cfg) slots u.count.toNat).1 ≤ input.length) :
    (payloadRun u slots input).bytes.length = slots := by
  refine payloadRun_induction (P := fun u slots input => (payloadRun u slots input).bytes.length = slots)
    (fun u input => ?_) (fun u slots b bs hslots ih => ?_) h
  · rw [payloadRun_zero]; rfl
  · have hemitted : (payloadByte u b).emitted.toList.length ≤ slots := by
      rw [payloadByte_emitted_length]; split <;> omega
    rw [payloadRun_cons hslots, List.length_append, ih, Nat.add_sub_cancel' hemitted]

theorem length_flatMap_bitsMSB (bytes : List Byte) :
    (bytes.flatMap fun v => bitsMSB v).length = 8 * bytes.length := by
  simp [List.length_flatMap, Nat.mul_comm]

/-! ## The in-band field -/

/-- The in-band field, its reserved zeros written field by field (R90). -/
theorem inbandField_eq (tsRate : Word) : inbandField tsRate =
    [false, true] ++ List.replicate 31 false ++ List.replicate 22 false ++ List.replicate 2 false
      ++ List.replicate 10 false ++ bitsMSB (tsRate.truncate 27) ++ List.replicate 10 false := by
  have hrate : tsRate.extractLsb' 0 27 = tsRate.truncate 27 := (BitVec.setWidth_eq_extractLsb' (by decide)).symm
  rw [inbandField, hrate]
  simp

/-- What stands behind the payload: the in-band field exactly if padding is 104 (R88, R90). -/
def inbandPart (u : FrUnit) : List Bool := if framePadding u = 0 then [] else inbandField u.tsRate

theorem length_inbandPart (u : FrUnit) : (inbandPart u).length = framePadding u := by
  unfold inbandPart
  obtain hpad | hpad := framePadding_cases u <;> simp [hpad]

theorem inbandPart_eq (u : FrUnit) : inbandPart u = if framePadding u = 104 then
    [false, true] ++ List.replicate 31 false ++ List.replicate 22 false ++ List.replicate 2 false
      ++ List.replicate 10 false ++ bitsMSB (u.tsRate.truncate 27) ++ List.replicate 10 false else [] := by
  rw [inbandPart, inbandField_eq]
  obtain hpad | hpad := framePadding_cases u <;> simp [hpad]

/-! ## The frame -/

/-- The bits of a frame: header, payload, and what stands behind it (R88). -/
theorem frameRun_bits (u : FrUnit) (input : List Byte) : (frameRun u input).bits =
    frameHeader u ++ ((payloadRun u (frameSlots u) input).bytes.flatMap (fun v => bitsMSB v) ++ inbandPart u) :=
  List.append_assoc _ _ _

/-- The FEC-block counter at the end of a frame (R135). -/
theorem advanceFecBlock_fecBlock (u : FrUnit) : (advanceFecBlock u).fecBlock =
    if frInband u.cfg then BitVec.ofNat 32 ((u.fecBlock.toNat + 1) % u.fecBlocks.toNat) else u.fecBlock := by
  unfold advanceFecBlock; split <;> rfl

/-- A frame leaves the unit as its payload does, but for the FEC-block counter (R135). -/
theorem frameRun_unit (u : FrUnit) (input : List Byte) : (frameRun u input).unit =
    { (payloadRun u (frameSlots u) input).unit with
      fecBlock := if frInband u.cfg then BitVec.ofNat 32 ((u.fecBlock.toNat + 1) % u.fecBlocks.toNat)
        else u.fecBlock } := by
  rw [frameRun, advanceFecBlock_eq, advanceFecBlock_fecBlock]
  simp only [payloadRun_cfg, payloadRun_fecBlock, payloadRun_fecBlocks]

/-- The payload bits of a frame that finds the bytes it needs are as many as its DFL says (R88, R91). -/
theorem FrUnit.Working.length_payload {u : FrUnit} (h : u.Working) {input : List Byte}
    (henough : u.frameNeed ≤ input.length) :
    ((payloadRun u (frameSlots u) input).bytes.flatMap fun v => bitsMSB v).length = frameDfl u := by
  rw [length_flatMap_bitsMSB, payloadRun_length_bytes henough, h.frame_sizes.1]

/-- A frame that finds the bytes it needs is kbch bits (R88). -/
theorem length_frameRun_bits {u : FrUnit} (h : u.Working) {input : List Byte}
    (henough : u.frameNeed ≤ input.length) : (frameRun u input).bits.length = u.kbch.toNat := by
  rw [frameRun_bits, List.length_append, List.length_append, length_frameHeader, h.length_payload henough,
    length_inbandPart, ← Nat.add_assoc, h.frame_sizes.2]

/-- Settles O34: the header has 80 bits and the payload DFL bits, so the parts of the frame stand at their places. -/
theorem frameLayout : Obligations.FrameLayout := by
  intro u input hlegal hready hneed
  have hworking : u.Working := ⟨hlegal, hready.1⟩
  rw [hworking.need_kbch] at hneed
  have hheader : (frameHeader u).length = 80 := length_frameHeader u
  have hpayload := hworking.length_payload hneed
  refine ⟨frameRun_unit u input, rfl, rfl, length_frameRun_bits hworking hneed, ?_, payloadRun_length_bytes hneed, ?_,
    ?_⟩
  · rw [frameRun_bits, List.take_left' hheader]
  · rw [frameRun_bits, List.drop_left' hheader]
    exact List.take_left' hpayload
  · rw [frameRun_bits, ← List.drop_drop, List.drop_left' hheader]
    exact (List.drop_left' hpayload).trans (inbandPart_eq u)

end Sys2Proof.Machine
end

section
/-! PROOFS about what the Framer's commands check and answer: FR_CONFIG (40_framer.md R120), FR_FORECAST (R122), and
the order of the checks of FR_WORK (R124 to R126). Each command that faults ends with the fault of its first check that
fails, so an order of faults is a fact about the chain of checks alone. -/

namespace Sys2Proof.Machine

open Sys2Proof

/-! ## FR_CONFIG -/

/-- FR_CONFIG whose checks fail ends with the fault of the first one that does (R120). -/
theorem exec_frConfig_of_failed {w1 w2 w3 : Word} {s : State} {code : FaultCode}
    (failed : frConfigCheck w1 w2 w3 s.fr = some code) :
    exec (.frConfig w1 w2 w3) s = .next (faultCommand .frConfig code s) := by
  simp only [exec, execFrConfig, failed, answerFault]

theorem exec_frConfig_of_passed {w1 w2 w3 : Word} {s : State} (passed : frConfigCheck w1 w2 w3 s.fr = none) :
    exec (.frConfig w1 w2 w3) s =
      .next (respond (.ok [(frConfigured w1 w2 w3 s.fr).kbch]) { s with fr := frConfigured w1 w2 w3 s.fr }) := by
  simp only [exec, execFrConfig, passed, answerOk]

/-- The checks of FR_CONFIG on an UNCONFIGURED unit (R120). -/
theorem frConfigCheck_of_unconfigured {w1 w2 w3 : Word} {u : FrUnit} (h : Unconfigured u.status) :
    frConfigCheck w1 w2 w3 u = if w1 &&& frCfgReserved ≠ 0 then some .badOperand
      else if frInband w1 = true ∧ w2 = 0 then some .configError
      else if 2 ^ 27 ≤ w3.toNat then some .configError else none := by
  obtain ⟨hconf, hok⟩ := h
  simp [frConfigCheck, hconf, hok]

/-- Settles O26: the premises are the checks of FR_CONFIG, which pass. -/
theorem frConfigConfigures : Obligations.FrConfigConfigures := by
  intro w1 w2 w3 s hunconf hreserved hblocks hrate
  exact exec_frConfig_of_passed (frConfigCheck_eq_none.mpr ⟨hunconf, hreserved, hblocks, hrate⟩)

/-- Settles O27: each premise lets the checks before the one it names pass, and fails that one. -/
theorem frConfigFaultOrder : Obligations.FrConfigFaultOrder := by
  intro w1 w2 w3 s
  refine ⟨fun hfaulted => exec_frConfig_of_failed ?_, fun ⟨hconf, hok⟩ => exec_frConfig_of_failed ?_,
    fun hunconf (hreserved : w1 &&& frCfgReserved ≠ 0) => exec_frConfig_of_failed ?_,
    fun hunconf (hreserved : w1 &&& frCfgReserved = 0) hbad => exec_frConfig_of_failed ?_⟩
  · simp [frConfigCheck, hfaulted]
  · simp [frConfigCheck, hconf, hok]
  · rw [frConfigCheck_of_unconfigured hunconf, if_pos hreserved]
  · rw [frConfigCheck_of_unconfigured hunconf, if_neg (not_not.mpr hreserved)]
    split_ifs with hblocks hrate
    · rfl
    · rfl
    · exact (hbad.elim hblocks hrate).elim

/-! ## The lifecycle check -/

theorem readyCheck_of_faulted {status : Word} (h : isFaulted status = true) :
    readyCheck status = some .unitFaulted := by
  simp [readyCheck, h]

theorem readyCheck_of_unconfigured {status : Word} (h : Unconfigured status) :
    readyCheck status = some .unconfigured := by
  obtain ⟨hconf, hok⟩ := h
  simp [readyCheck, hconf, hok]

/-! ## FR_FORECAST -/

/-- FR_FORECAST whose lifecycle check fails ends with its fault (R122). -/
theorem exec_frForecast_of_failed {n : Word} {s : State} {code : FaultCode}
    (failed : readyCheck s.fr.status = some code) :
    exec (.frForecast n) s = .next (faultCommand .frForecast code s) := by
  simp only [exec, execFrForecast, failed, answerFault]

theorem exec_frForecast_of_ready {n : Word} {s : State} (ready : Ready s.fr.status) : exec (.frForecast n) s =
    .next (respond (.ok [BitVec.ofNat 32 (frForecast (frHem s.fr.cfg) n.toNat)]) s) := by
  simp only [exec, execFrForecast, readyCheck_eq_none.mpr ready, answerOk]

/-- The declared input bytes in natural numbers (R122). -/
theorem frForecast_eq (hem : Bool) (n : Nat) : frForecast hem n = if n = 0 then 0
    else (if n ≤ 80 then 0 else (n - 80 + 7) / 8) + (if hem then 188 else 0) := by
  have hbytes : (max 0 (-((80 - (n : Int)) / 8))).toNat = if n ≤ 80 then 0 else (n - 80 + 7) / 8 := by
    split <;> omega
  rw [frForecast, hbytes]; rfl

/-- Settles O28: the words are those of the command, and the answer is the forecast in natural numbers. -/
theorem frForecastAnswers : Obligations.FrForecastAnswers := by
  refine ⟨fun n rest => decodeOfEncode (.frForecast n) rest rfl, fun n s => ⟨fun hready => ?_, fun hfaulted => ?_,
    fun hunconf => ?_⟩⟩
  · rw [exec_frForecast_of_ready hready, frForecast_eq]; rfl
  · exact exec_frForecast_of_failed (readyCheck_of_faulted hfaulted)
  · exact exec_frForecast_of_failed (readyCheck_of_unconfigured hunconf)

/-! ## The checks of FR_WORK -/

/-- FR_WORK whose checks fail ends with the fault of the first one that does (R124 to R126). -/
theorem exec_frWork_of_failed {n : Word} {s : State} {code : FaultCode}
    (failed : frWorkCheck n.toNat (handedFr s) s.fr = some code) :
    exec (.frWork n) s = .next (faultCommand .frWork code s) := by
  simp only [exec, execFrWork, failed, answerFault]

theorem frWorkCheck_of_not_ready {n : Nat} {b : Buffers Byte} {u : FrUnit} {code : FaultCode}
    (h : readyCheck u.status = some code) : frWorkCheck n b u = some code := by
  simp only [frWorkCheck, h]

/-- The checks of FR_WORK on a READY unit (R125, R126). -/
theorem frWorkCheck_of_ready {n : Nat} {b : Buffers Byte} {u : FrUnit} (ready : Ready u.status) :
    frWorkCheck n b u = if n % u.kbch.toNat ≠ 0 then some .badSize
      else if b.output.length < n then some .outputOverflow
      else if b.input.length < need u n then some .inputUnderrun else none := by
  simp only [frWorkCheck, readyCheck_eq_none.mpr ready]

/-- Settles O30: each premise lets the checks before the one it names pass, and fails that one. -/
theorem frWorkFaultOrder : Obligations.FrWorkFaultOrder := by
  intro n s
  refine ⟨fun hfaulted => exec_frWork_of_failed ?_, fun hunconf => exec_frWork_of_failed ?_,
    fun hready hsize => exec_frWork_of_failed ?_, fun hready hsize hcap => exec_frWork_of_failed ?_,
    fun hready hsize hcap hinput => exec_frWork_of_failed ?_⟩
  · exact frWorkCheck_of_not_ready (readyCheck_of_faulted hfaulted)
  · exact frWorkCheck_of_not_ready (readyCheck_of_unconfigured hunconf)
  · rw [frWorkCheck_of_ready hready, if_pos hsize]
  · rw [frWorkCheck_of_ready hready, if_neg (not_not.mpr hsize), if_pos hcap]
  · rw [frWorkCheck_of_ready hready, if_neg (not_not.mpr hsize), if_neg (Nat.not_lt.mpr hcap), if_pos hinput]

end Sys2Proof.Machine
end

section
/-! PROOFS about the two checksums of the Framer (40_framer.md R129, R137 to R139): both are the CRC-8 with generator
0xD5, whose step is linear in the register and the bit together. The table of the payload checksum gives eight steps at
once; the header register is the same one read backwards. -/

namespace Sys2Proof.Machine

open Sys2Proof

/-! ## The bit-serial CRC-8 -/

/-- One bit into the MSB-first CRC-8 with generator 0xD5 (R137 to R139). -/
def msbCrcStep (c : Byte) (x : Bool) : Byte := if (x ^^ c.getLsbD 7) = true then (c <<< 1) ^^^ 0xD5 else c <<< 1

/-- A step is the shift, and the generator where the bit and the register's last one differ. -/
theorem msbCrcStep_eq_xor (c : Byte) (x : Bool) :
    msbCrcStep c x = (c <<< 1) ^^^ (if (x ^^ c.getLsbD 7) = true then 0xD5 else 0) := by
  unfold msbCrcStep; split <;> simp

/-- A step is linear in the register and the bit together. -/
theorem msbCrcStep_xor (c d : Byte) (x y : Bool) :
    msbCrcStep (c ^^^ d) (x ^^ y) = msbCrcStep c x ^^^ msbCrcStep d y := by
  have hgen : ∀ p q : Bool, (if (p ^^ q) = true then (0xD5 : Byte) else 0) =
      (if p = true then 0xD5 else 0) ^^^ (if q = true then 0xD5 else 0) := by decide
  have hbits : (x ^^ y ^^ (c ^^^ d).getLsbD 7) = ((x ^^ c.getLsbD 7) ^^ (y ^^ d.getLsbD 7)) := by
    rw [BitVec.getLsbD_xor, Bool.xor_assoc, Bool.xor_assoc, Bool.xor_left_comm y]
  simp only [msbCrcStep_eq_xor, hbits, hgen, BitVec.shiftLeft_xor_distrib]
  ac_rfl

/-- The CRC-8 of bit sequences of one length is linear. -/
theorem foldl_msbCrcStep_xor (c d : Byte) {xs ys : List Bool} (h : xs.length = ys.length) :
    (List.zipWith xor xs ys).foldl msbCrcStep (c ^^^ d) = xs.foldl msbCrcStep c ^^^ ys.foldl msbCrcStep d := by
  induction xs generalizing c d ys with
  | nil => cases ys <;> simp_all
  | cons x xs ih =>
    cases ys with
    | nil => simp at h
    | cons y ys =>
      simp only [List.zipWith_cons_cons, List.foldl_cons, msbCrcStep_xor]
      exact ih _ _ (by simpa using h)

theorem bitsMSB_xor {w : Nat} (v x : BitVec w) : bitsMSB (v ^^^ x) = List.zipWith xor (bitsMSB v) (bitsMSB x) := by
  simp [bitsMSB, List.zipWith_map, List.zipWith_self]

/-! ## The table -/

/-- An entry of the table is the CRC-8 of its index (R137). -/
theorem crc8Entry_eq (i : Byte) : crc8Entry i = (bitsMSB i).foldl msbCrcStep 0 := rfl

/-- Settles O44: the rounds of the construction are the steps of the bit-serial CRC-8. -/
theorem crcTableContent : Obligations.CrcTableContent :=
  ⟨crc8Entry_eq, by decide, by decide, by decide, by decide, by decide⟩

/-- Eight zero bits into a register are its own bits into 0. -/
theorem foldl_msbCrcStep_zeros : ∀ c : Byte,
    (bitsMSB (0 : Byte)).foldl msbCrcStep c = (bitsMSB c).foldl msbCrcStep 0 := by
  decide +kernel

/-- Folding a byte in through the table is the CRC-8 of its bits (R138). -/
theorem crc8Fold_eq (c b : Byte) : crc8Fold c b = (bitsMSB b).foldl msbCrcStep c := by
  have hlen : ∀ v x : Byte, (bitsMSB v).length = (bitsMSB x).length := by simp
  calc crc8Fold c b
      = (bitsMSB b).foldl msbCrcStep 0 ^^^ (bitsMSB c).foldl msbCrcStep 0 := by
        rw [crc8Fold, crc8Entry_eq, bitsMSB_xor, ← foldl_msbCrcStep_xor _ _ (hlen b c)]; rfl
    _ = (bitsMSB b).foldl msbCrcStep 0 ^^^ (bitsMSB (0 : Byte)).foldl msbCrcStep c := by
        rw [foldl_msbCrcStep_zeros]
    _ = (bitsMSB b).foldl msbCrcStep c := by
        rw [← foldl_msbCrcStep_xor _ _ (hlen b 0), ← bitsMSB_xor]; simp

/-- Settles O45: folding byte by byte is folding bit by bit. -/
theorem payloadCrcIsBitSerial : Obligations.PayloadCrcIsBitSerial := by
  refine ⟨fun bs => ?_, by decide +kernel⟩
  have hfold : crc8Fold = fun c b => (bitsMSB b).foldl msbCrcStep c := funext₂ crc8Fold_eq
  rw [crc8Bytes, hfold]
  exact List.foldl_flatMap.symm

/-! ## The header CRC -/

/-- The header CRC register is the MSB-first one read backwards, bit by bit (R139). -/
theorem reverse_headerCrcStep : ∀ (c : Byte) (x : Bool),
    (headerCrcStep c x).reverse = msbCrcStep c.reverse x := by
  decide

theorem reverse_headerCrcRegister (h : List Bool) : (headerCrcRegister h).reverse = h.foldl msbCrcStep 0 :=
  (List.foldl_hom BitVec.reverse fun c x => (reverse_headerCrcStep c x).symm).symm

theorem bitsLSB_eq_bitsMSB_reverse {w : Nat} (v : BitVec w) : bitsLSB v = bitsMSB v.reverse := by
  refine List.map_congr_left fun i hi => ?_
  have hi : i < w := List.mem_range.mp hi
  rw [BitVec.getLsbD_reverse]
  simp [BitVec.getMsbD, show w - 1 - i < w by omega, show w - 1 - (w - 1 - i) = i by omega]

/-- The flip of high-efficiency mode is a flip of the last bit emitted (R129). -/
theorem reverse_xor_top : ∀ c : Byte, (c ^^^ 0x80).reverse = c.reverse ^^^ 0x01 := by
  decide

/-- What the register held before a bit. -/
def headerCrcUnstep (x : Bool) (crc : Byte) : Byte :=
  if crc.getLsbD 7 then ((crc ^^^ 0xAB) <<< 1) ||| (if x then 0 else 1) else (crc <<< 1) ||| (if x then 1 else 0)

theorem headerCrcUnstep_step : ∀ (x : Bool) (c : Byte), headerCrcUnstep x (headerCrcStep c x) = c := by
  decide

theorem foldl_headerCrcStep_injective (h : List Bool) : Function.Injective fun c => h.foldl headerCrcStep c := by
  induction h with
  | nil => exact fun _ _ h => h
  | cons x xs ih => exact ih.comp (Function.LeftInverse.injective (headerCrcUnstep_step x))

theorem headerCrcStep_not_ne : ∀ (c : Byte) (x : Bool), headerCrcStep c x ≠ headerCrcStep c (!x) := by
  decide

/-- Settles O46: the register is the MSB-first one read backwards; a flipped bit changes a step, and later steps keep
registers apart. -/
theorem headerCrcLaw : Obligations.HeaderCrcLaw := by
  refine ⟨fun h => ?_, fun before after x heq => ?_⟩
  · have hnormal := reverse_headerCrcRegister h
    have hhem : (headerCrc true h).reverse = h.foldl msbCrcStep 0 ^^^ 0x01 := by
      rw [← hnormal]; exact reverse_xor_top _
    rw [bitsLSB_eq_bitsMSB_reverse, bitsLSB_eq_bitsMSB_reverse, hnormal, hhem]
    exact ⟨rfl, rfl⟩
  · simp only [headerCrcRegister, List.foldl_append, List.foldl_cons] at heq
    exact headerCrcStep_not_ne _ x (foldl_headerCrcStep_injective after heq)

end Sys2Proof.Machine
end

section
/-! PROOFS about the payload (40_framer.md R123, R131 to R133): what one byte does, how many bytes the slots take, and
that a payload that finds its bytes is the payload byte steps on exactly those bytes. What it emits and reports is then
read off the list of bytes, by induction on the list. -/

namespace Sys2Proof.Machine

open Sys2Proof

/-! ## One payload byte -/

section PayloadByte
variable {u : FrUnit} {b : Byte}

/-- A byte at a packet start in high-efficiency mode is checked and dropped (R132). -/
theorem payloadByte_start_hem (hcount : u.count = 0) (hhem : frHem u.cfg = true) : payloadByte u b =
    { unit := { syncCheck b { u with inPos := u.inPos + 1 } with count := nextCount u.count }
      emitted := none
      events := syncEvents u.inPos b } := by
  simp [payloadByte, hcount, hhem]

/-- A byte at a packet start in normal mode is checked, and its slot takes the checksum (R132). -/
theorem payloadByte_start_nm (hcount : u.count = 0) (hnm : frHem u.cfg = false) : payloadByte u b =
    { unit := { syncCheck b { u with inPos := u.inPos + 1 } with count := nextCount u.count, crc := 0 }
      emitted := some u.crc
      events := syncEvents u.inPos b } := by
  simp [payloadByte, hcount, hnm]

/-- Any other byte fills its slot in high-efficiency mode (R132). -/
theorem payloadByte_inside_hem (hcount : u.count ≠ 0) (hhem : frHem u.cfg = true) : payloadByte u b =
    { unit := { u with inPos := u.inPos + 1, count := nextCount u.count }
      emitted := some b
      events := [] } := by
  simp only [payloadByte, if_neg hcount, hhem, if_true]

/-- Any other byte fills its slot and is folded into the checksum in normal mode (R132). -/
theorem payloadByte_inside_nm (hcount : u.count ≠ 0) (hnm : frHem u.cfg = false) : payloadByte u b =
    { unit := { u with inPos := u.inPos + 1, count := nextCount u.count, crc := crc8Fold u.crc b }
      emitted := some b
      events := [] } := by
  simp only [payloadByte, if_neg hcount, hnm, Bool.false_eq_true, if_false]

/-- The check of a byte at a packet start changes the error record alone (R133). -/
theorem syncCheck_eq (b : Byte) (v : FrUnit) : syncCheck b v =
    { v with syncErr := (if b = syncByte then v.syncErr else v.syncErr + 1)
             status := (if b = syncByte then v.status else setSyncErr v.status) } := by
  unfold syncCheck; split <;> rfl

end PayloadByte

/-- Settles O36: the four cases of a byte, by the counter and the input mode. -/
theorem payloadByteRule : Obligations.PayloadByteRule := by
  intro u b
  by_cases hcount : u.count = 0#8 <;> cases hmode : u.cfg.getLsbD 8
  · rw [payloadByte_start_nm hcount hmode, syncCheck_eq]
    simp +contextual [hcount, nextCount, packetSize, syncEvents, syncByte, setSyncErr]
  · rw [payloadByte_start_hem hcount hmode, syncCheck_eq]
    simp +contextual [hcount, nextCount, packetSize, syncEvents, syncByte, setSyncErr]
  · rw [payloadByte_inside_nm hcount hmode]
    simp [hcount, nextCount, packetSize, crc8Fold]
  · rw [payloadByte_inside_hem hcount hmode]
    simp [hcount, nextCount, packetSize]

/-! ## The bytes that slots take -/

/-- In normal mode every slot takes one byte (R123). -/
theorem needSlots_nm (s : Nat) {c : Nat} (hc : c < 188) : needSlots false s c = (s, (c + s) % 188) := by
  induction s generalizing c with
  | zero => simp [needSlots, Nat.mod_eq_of_lt hc]
  | succ s ih =>
    rw [needSlots_succ (by simp), packetSize, ih (Nat.mod_lt _ (by decide)), Nat.mod_add_mod, Nat.add_assoc,
      Nat.add_comm 1 s]

/-- In high-efficiency mode the slots take one byte each and the z sync bytes dropped, which are the multiples of the
packet size that the counter passes (R123, R141). -/
theorem needSlots_hem (s : Nat) {c : Nat} (hc : c < 188) : ∃ z,
    needSlots true s c = (s + z, (c + s + z) % 188) ∧ z + (c + 187) / 188 = (c + s + z + 187) / 188 := by
  induction s generalizing c with
  | zero => exact ⟨0, by simp [needSlots, Nat.mod_eq_of_lt hc], by omega⟩
  | succ s ih =>
    by_cases hstart : c = 0
    · obtain ⟨z, hneed, hz⟩ := ih (c := 2) (by decide)
      refine ⟨z + 1, ?_, by omega⟩
      rw [hstart, needSlots_succ_syncByte, needSlots_succ (by decide), packetSize, hneed]
      ext <;> simp +arith
    · obtain ⟨z, hneed, hz⟩ := ih (c := (c + 1) % 188) (Nat.mod_lt _ (by decide))
      refine ⟨z, ?_, by omega⟩
      rw [needSlots_succ (by simp [hstart]), packetSize, hneed, Nat.add_assoc _ s z, Nat.mod_add_mod]
      ext <;> simp +arith

/-- Settles O41: the multiples of the packet size counted as R141 counts them. -/
theorem bytesNeededPerFrame : Obligations.BytesNeededPerFrame := by
  intro s c hc
  obtain ⟨z, hneed, hz⟩ := needSlots_hem s hc
  rw [needSlots_nm s hc, hneed, Nat.add_sub_cancel_left]
  refine ⟨rfl, Nat.le_add_right s z, ?_, rfl, rfl⟩
  obtain hc0 | hpos := Nat.eq_zero_or_pos c
  · subst hc0; split <;> omega
  · rw [Nat.mod_eq_of_lt (show 188 - c < 188 by omega)]
    split
    · rw [show c + s + z + 187 = s + z - (188 - c) + 187 + 188 by omega, Nat.add_div_right _ (by decide)] at hz
      omega
    · omega



/-! ## One byte, register by register -/

section PayloadByte
variable (u : FrUnit) (b : Byte)

theorem toNat_payloadByte_count : (payloadByte u b).unit.count.toNat = (u.count.toNat + 1) % 188 := by
  rw [payloadByte_count, toNat_nextCount, packetSize]

@[simp] theorem payloadByte_inPos : (payloadByte u b).unit.inPos = u.inPos + 1 := (payloadByteRule u b).1

theorem payloadByte_events : (payloadByte u b).events =
    if u.count = 0 ∧ b ≠ 0x47 then [.syncError u.inPos b] else [] := by
  obtain ⟨-, -, -, hsync, hwrong, -, -, hinside, -, -⟩ := payloadByteRule u b
  split
  · next h => exact (hwrong h.1 h.2).1
  · next h =>
    by_cases hcount : u.count = 0
    · exact (hsync hcount (not_not.mp fun hb => h ⟨hcount, hb⟩)).1
    · exact (hinside hcount).1

/-- The error record follows the reports (R133). -/
theorem payloadByte_errors :
    (payloadByte u b).unit.syncErr = u.syncErr + BitVec.ofNat 32 (payloadByte u b).events.length ∧
    (payloadByte u b).unit.status = if (payloadByte u b).events = [] then u.status else u.status ||| 4 := by
  obtain ⟨-, -, -, hsync, hwrong, -, -, hinside, -, -⟩ := payloadByteRule u b
  by_cases hcount : u.count = 0
  · by_cases hb : b = 0x47
    · obtain ⟨hevents, herr, hstatus⟩ := hsync hcount hb
      simp [hevents, herr, hstatus]
    · obtain ⟨hevents, herr, hstatus⟩ := hwrong hcount hb
      simp [hevents, herr, hstatus]
  · obtain ⟨hevents, -, herr, hstatus⟩ := hinside hcount
    simp [hevents, herr, hstatus]

theorem payloadByte_emitted_hem (hhem : frHem u.cfg = true) :
    (payloadByte u b).emitted.toList = if u.count = 0 then [] else [b] := by
  obtain ⟨-, -, -, -, -, -, hstart, hinside, -, -⟩ := payloadByteRule u b
  split
  · next h => rw [(hstart h hhem).1]; rfl
  · next h => rw [(hinside h).2.1]; rfl

/-- In normal mode a byte fills a slot and moves the checksum on (R132). -/
theorem payloadByte_nm (hnm : frHem u.cfg = false) :
    (payloadByte u b).emitted = some (if u.count = 0 then u.crc else b) ∧
    (payloadByte u b).unit.crc = if u.count = 0 then 0 else crc8Fold u.crc b := by
  obtain ⟨-, -, -, -, -, hstart, -, hinside, hcrc, -⟩ := payloadByteRule u b
  split
  · next h => exact hstart h hnm
  · next h => exact ⟨(hinside h).2.1, hcrc h hnm⟩

end PayloadByte

/-! ## Bytes one after the other -/

/-- Unit FR after the payload byte steps on all of `bs`. -/
def bytesUnit (u : FrUnit) (bs : List Byte) : FrUnit := bs.foldl (fun v b => (payloadByte v b).unit) u

/-- What the payload byte steps on all of `bs` emit. -/
def bytesEmitted : FrUnit → List Byte → List Byte
  | _, [] => []
  | u, b :: bs => (payloadByte u b).emitted.toList ++ bytesEmitted (payloadByte u b).unit bs

/-- What the payload byte steps on all of `bs` report. -/
def bytesEvents : FrUnit → List Byte → List Event
  | _, [] => []
  | u, b :: bs => (payloadByte u b).events ++ bytesEvents (payloadByte u b).unit bs

@[simp] theorem bytesUnit_cons (u : FrUnit) (b : Byte) (bs : List Byte) :
    bytesUnit u (b :: bs) = bytesUnit (payloadByte u b).unit bs := rfl

theorem bytesUnit_append (u : FrUnit) (bs cs : List Byte) :
    bytesUnit u (bs ++ cs) = bytesUnit (bytesUnit u bs) cs := List.foldl_append

/-- The payload byte steps on the first n bytes of the input. -/
def bytesRun (u : FrUnit) (n : Nat) (input : List Byte) : PayloadRun :=
  { unit := bytesUnit u (input.take n)
    bytes := bytesEmitted u (input.take n)
    events := bytesEvents u (input.take n)
    rest := input.drop n }

/-- A payload that finds the bytes it needs is the payload byte steps on exactly those bytes (R132). -/
theorem payloadRun_eq_bytesRun {u : FrUnit} {slots : Nat} {input : List Byte}
    (h : (needSlots (frHem u.cfg) slots u.count.toNat).1 ≤ input.length) :
    payloadRun u slots input = bytesRun u (needSlots (frHem u.cfg) slots u.count.toNat).1 input := by
  refine payloadRun_induction (P := fun u slots input =>
    payloadRun u slots input = bytesRun u (needSlots (frHem u.cfg) slots u.count.toNat).1 input)
    (fun u input => ?_) (fun u slots b bs hslots ih => ?_) h
  · rw [payloadRun_zero]; rfl
  · simp only [payloadRun_cons hslots, ih, needSlots_payloadByte u b hslots, payloadByte_cfg]
    rfl

section Bytes
variable (u : FrUnit) (bs : List Byte)

@[simp] theorem bytesUnit_cfg : (bytesUnit u bs).cfg = u.cfg := by
  induction bs generalizing u with
  | nil => rfl
  | cons b bs ih => rw [bytesUnit_cons, ih, payloadByte_cfg]

theorem bytesUnit_inPos : (bytesUnit u bs).inPos = u.inPos + BitVec.ofNat 64 bs.length := by
  induction bs generalizing u with
  | nil => simp [bytesUnit]
  | cons b bs ih =>
    rw [bytesUnit_cons, ih, payloadByte_inPos, List.length_cons, BitVec.ofNat_add, BitVec.add_assoc, BitVec.add_comm 1]
    rfl

theorem bytesUnit_count (hu : u.count.toNat < 188) :
    (bytesUnit u bs).count.toNat = (u.count.toNat + bs.length) % 188 := by
  induction bs generalizing u with
  | nil => exact (Nat.mod_eq_of_lt hu).symm
  | cons b bs ih =>
    have hcount := toNat_payloadByte_count u b
    rw [bytesUnit_cons, ih _ (by omega), hcount, List.length_cons, Nat.mod_add_mod, Nat.add_assoc, Nat.add_comm 1]

/-- The error record after the bytes follows the reports (R133). -/
theorem bytesUnit_errors : (bytesUnit u bs).syncErr = u.syncErr + BitVec.ofNat 32 (bytesEvents u bs).length ∧
    (bytesUnit u bs).status = if bytesEvents u bs = [] then u.status else u.status ||| 4 := by
  induction bs generalizing u with
  | nil => simp [bytesUnit, bytesEvents]
  | cons b bs ih =>
    obtain ⟨herr, hstatus⟩ := payloadByte_errors u b
    obtain ⟨herrs, hstatuses⟩ := ih (payloadByte u b).unit
    constructor
    · rw [bytesUnit_cons, herrs, herr, bytesEvents, List.length_append, BitVec.ofNat_add, BitVec.add_assoc]
    · rw [bytesUnit_cons, hstatuses, hstatus, bytesEvents]
      by_cases hfirst : (payloadByte u b).events = []
      · simp [hfirst]
      · by_cases hlater : bytesEvents (payloadByte u b).unit bs = [] <;> simp [hfirst, hlater, BitVec.or_assoc]

end Bytes

/-- The reports are the wrong bytes at packet starts, with their positions; the first byte has index j (R133). -/
theorem bytesEvents_eq (c j : Nat) (pos : BitVec 64) (u : FrUnit) (bs : List Byte)
    (hcount : u.count.toNat = (c + j) % 188) (hpos : u.inPos = pos + BitVec.ofNat 64 j) :
    bytesEvents u bs = ((bs.zipIdx j).filter fun p => (c + p.2) % 188 == 0 && p.1 != 0x47).map
      (fun p => Event.syncError (pos + BitVec.ofNat 64 p.2) p.1) := by
  induction bs generalizing u j with
  | nil => rfl
  | cons b bs ih =>
    have hcount' : (payloadByte u b).unit.count.toNat = (c + (j + 1)) % 188 := by
      rw [toNat_payloadByte_count, hcount, Nat.mod_add_mod, Nat.add_assoc]
    have hreported : u.count = 0 ∧ b ≠ 0x47 ↔ ((c + j) % 188 == 0 && b != 0x47) = true := by
      simp [BitVec.toNat_eq, ← hcount]
    have hpos' : (payloadByte u b).unit.inPos = pos + BitVec.ofNat 64 (j + 1) := by
      rw [payloadByte_inPos, hpos, BitVec.ofNat_add, BitVec.add_assoc]; rfl
    rw [bytesEvents, payloadByte_events, ih _ _ hcount' hpos', List.zipIdx_cons, List.filter_cons]
    simp only [hreported]
    split
    · rw [List.map_cons, hpos]; rfl
    · rfl

/-- Settles O39: each clause is a fact about the steps on the bytes taken, whose number is what `need` counts. -/
theorem payloadCountsAndReports : Obligations.PayloadCountsAndReports := by
  intro u slots input hcount taken henough run
  have hrun : run = bytesRun u taken input := payloadRun_eq_bytesRun henough
  have hlen : (input.take taken).length = taken := List.length_take_of_le henough
  rw [hrun]
  refine ⟨rfl, rfl, ?_, ?_, ?_, bytesUnit_errors _ _⟩
  · exact (bytesUnit_inPos u _).trans (by rw [hlen])
  · exact (bytesUnit_count u _ hcount).trans (by rw [hlen])
  · exact bytesEvents_eq u.count.toNat 0 u.inPos u _ (Nat.mod_eq_of_lt hcount).symm (BitVec.add_zero _).symm

/-! ## High-efficiency mode -/

/-- High-efficiency mode emits the bytes that are not at packet starts; the first byte has index j (R132). -/
theorem bytesEmitted_hem (c j : Nat) (u : FrUnit) (bs : List Byte) (hhem : frHem u.cfg = true)
    (hcount : u.count.toNat = (c + j) % 188) : bytesEmitted u bs =
      ((bs.zipIdx j).filter fun p => (c + p.2) % 188 != 0).map fun p => p.1 := by
  induction bs generalizing u j with
  | nil => rfl
  | cons b bs ih =>
    have hcount' : (payloadByte u b).unit.count.toNat = (c + (j + 1)) % 188 := by
      rw [toNat_payloadByte_count, hcount, Nat.mod_add_mod, Nat.add_assoc]
    have hdropped : ((c + j) % 188 != 0) = true ↔ ¬u.count = 0 := by simp [BitVec.toNat_eq, ← hcount]
    rw [bytesEmitted, payloadByte_emitted_hem u b hhem, ih _ _ (by simpa using hhem) hcount', List.zipIdx_cons,
      List.filter_cons]
    simp only [hdropped, ite_not]
    split <;> rfl

/-- Settles O38: the slots are filled, by the steps on the bytes taken. -/
theorem highEfficiencyPayload : Obligations.HighEfficiencyPayload := by
  intro u slots input hhem hcount henough
  have hhem : frHem u.cfg = true := hhem
  rw [← hhem] at henough ⊢
  refine ⟨payloadRun_length_bytes henough, ?_⟩
  rw [payloadRun_eq_bytesRun henough]
  exact bytesEmitted_hem u.count.toNat 0 u _ hhem (Nat.mod_eq_of_lt hcount).symm

/-! ## Normal mode -/

/-- Normal mode emits one byte for each: at a packet start the checksum, and else the byte itself (R132). -/
theorem getElem?_bytesEmitted_nm (u : FrUnit) (bs : List Byte) (k : Nat) (hnm : frHem u.cfg = false) :
    (bytesEmitted u bs)[k]? = bs[k]?.map fun b =>
      if (bytesUnit u (bs.take k)).count = 0 then (bytesUnit u (bs.take k)).crc else b := by
  induction bs generalizing u k with
  | nil => rfl
  | cons b bs ih =>
    rw [bytesEmitted, (payloadByte_nm u b hnm).1]
    cases k with
    | zero => rfl
    | succ k => exact ih (payloadByte u b).unit k (by simpa using hnm)

/-- Up to the next packet start the checksum folds every byte in (R132). -/
theorem bytesUnit_crc_nm (u : FrUnit) (bs : List Byte) (hnm : frHem u.cfg = false) (hcount : u.count.toNat < 188)
    (hinside : ∀ j < bs.length, (u.count.toNat + j) % 188 ≠ 0) :
    (bytesUnit u bs).crc = bs.foldl crc8Fold u.crc := by
  induction bs generalizing u with
  | nil => rfl
  | cons b bs ih =>
    have hne : u.count ≠ 0 := fun h => hinside 0 (by simp) (by simp [h])
    have hcount' := toNat_payloadByte_count u b
    have hcrc := (payloadByte_nm u b hnm).2
    rw [if_neg hne] at hcrc
    rw [bytesUnit_cons, List.foldl_cons, ← hcrc]
    refine ih _ (by simpa using hnm) (by omega) fun j hj => ?_
    have := hinside (j + 1) (by simpa using hj)
    omega

/-- A packet start restarts the checksum (R132). -/
theorem bytesUnit_crc_after_start (u : FrUnit) (bs : List Byte) (b : Byte) (hnm : frHem u.cfg = false)
    (hcount : u.count.toNat < 188) (hstart : (u.count.toNat + bs.length) % 188 = 0) :
    (bytesUnit u (bs ++ [b])).crc = 0 := by
  have hzero : (bytesUnit u bs).count = 0 := BitVec.eq_of_toNat_eq ((bytesUnit_count u bs hcount).trans hstart)
  rw [bytesUnit_append, bytesUnit_cons]
  exact (payloadByte_nm _ b (by simpa using hnm)).2.trans (if_pos hzero)

/-- At a packet start the checksum is that of the 187 bytes before it, which follow the last packet start (R132,
R138). -/
theorem bytesUnit_crc_packet (u : FrUnit) (input : List Byte) {k : Nat} (hnm : frHem u.cfg = false)
    (hcount : u.count.toNat < 188) (hstart : (u.count.toNat + k) % 188 = 0) (hk : 188 ≤ k) (hlen : k ≤ input.length) :
    (bytesUnit u (input.take k)).crc = ((input.drop (k - 187)).take 187).foldl crc8Fold 0 := by
  obtain ⟨i, rfl⟩ := Nat.exists_eq_add_of_le' hk
  have hbefore : input.take (i + 1) = input.take i ++ [input[i]] := List.take_succ_eq_append_getElem (by omega)
  have hcrc : (bytesUnit u (input.take (i + 1))).crc = 0 := by
    rw [hbefore]
    exact bytesUnit_crc_after_start u _ _ hnm hcount (by rw [List.length_take]; omega)
  have hone : (bytesUnit u (input.take (i + 1))).count.toNat = 1 := by
    rw [bytesUnit_count u _ hcount, List.length_take]; omega
  rw [show i + 188 - 187 = i + 1 by omega, show i + 188 = i + 1 + 187 by omega, List.take_add, bytesUnit_append,
    bytesUnit_crc_nm _ _ (by simpa using hnm) (by omega), hcrc]
  intro j hj
  rw [List.length_take] at hj
  omega

/-- Settles O37: slot k holds the checksum at a packet start and input byte k elsewhere; the checksum is that of the
bytes since the last packet start, if there is one. -/
theorem normalModePayload : Obligations.NormalModePayload := by
  intro u slots input hnm hcount henough bytes
  have hnm : frHem u.cfg = false := hnm
  have hneed : (needSlots (frHem u.cfg) slots u.count.toNat).1 = slots := by rw [hnm, needSlots_nm slots hcount]
  have hrun : bytes = bytesEmitted u (input.take slots) := by
    have hrun := payloadRun_eq_bytesRun (u := u) (slots := slots) (input := input) (by rwa [hneed])
    rw [hneed] at hrun
    exact congrArg PayloadRun.bytes hrun
  have hbyte : ∀ k < slots, bytes[k]? = input[k]?.map fun b =>
      if (u.count.toNat + k) % 188 = 0 then (bytesUnit u (input.take k)).crc else b := by
    intro k hk
    have hlen : (input.take k).length = k := List.length_take_of_le (by omega)
    have hzero : (bytesUnit u (input.take k)).count = 0 ↔ (u.count.toNat + k) % 188 = 0 := by
      rw [BitVec.toNat_eq, bytesUnit_count u _ hcount, hlen]; rfl
    rw [hrun, getElem?_bytesEmitted_nm u _ k hnm, List.getElem?_take_of_lt hk, List.take_take, Nat.min_eq_left hk.le]
    simp only [hzero]
  refine ⟨payloadRun_length_bytes (by rwa [hneed]), fun k hk => ⟨fun hinside => ?_, fun hstart hfirst => ?_,
    fun hstart hlater => ?_⟩⟩
  · rw [hbyte k hk]; simp [hinside]
  · rw [hbyte k hk, List.getElem?_eq_getElem (by omega), Option.map_some, if_pos hstart,
      bytesUnit_crc_nm u _ hnm hcount]
    · rfl
    · intro j hj
      rw [List.length_take] at hj
      omega
  · rw [hbyte k hk, List.getElem?_eq_getElem (by omega), Option.map_some, if_pos hstart,
      bytesUnit_crc_packet u input hnm hcount hstart hlater (by omega)]
    rfl

end Sys2Proof.Machine
end

section
/-! PROOFS about frames back to back and FR_WORK (40_framer.md R124, R127, R130, R135, R142): the sizes in the header,
the FEC-block counter, what a run of frames takes and emits, and the command that runs them, in one piece or in two. -/

namespace Sys2Proof.Machine

open Sys2Proof

/-! ## The sizes in the header -/

/-- Settles O35: kbch is a multiple of 8 in its range, and the counter a position in a packet. -/
theorem headerFieldsFit : Obligations.HeaderFieldsFit := by
  intro u hlegal hready
  have hworking : u.Working := ⟨hlegal, hready.1⟩
  obtain ⟨hmin, hmax, hmod⟩ := hworking.kbch_sizes
  obtain ⟨hslots, hsum⟩ := hworking.frame_sizes
  have hpadding := framePadding_cases u
  have hcount : u.count.toNat < 188 := hlegal.countRange
  have hsyncd : (frameSyncd u = 0 ↔ u.count = 0) ∧ frameSyncd u % 8 = 0 ∧ frameSyncd u ≤ 1496 := by
    unfold frameSyncd packetSize
    split
    · next h => simp [h]
    · next h =>
      have hpos : u.count.toNat ≠ 0 := fun h0 => h (BitVec.eq_of_toNat_eq h0)
      simp only [h, iff_false]
      omega
  exact ⟨by omega, by omega, by omega, by omega, hsum, hsyncd⟩

/-! ## The FEC-block counter -/

/-- The FEC-block counter after a frame with in-band signalling (R135). -/
theorem toNat_fecBlock_frameRun {u : FrUnit} (h : u.Working) (hin : frInband u.cfg = true)
    (input : List Byte) : (frameRun u input).unit.fecBlock.toNat = (u.fecBlock.toNat + 1) % u.fecBlocks.toNat := by
  have hbody : (payloadRun u (frameSlots u) input).unit.Working :=
    payloadRun_invariant (fun _ b hu => hu.payloadByte b) h
  simpa [frameRun, hin] using toNat_fecBlock_advanceFecBlock hbody

/-- The FEC-block counter after k frames with in-band signalling (R135, R140). -/
theorem toNat_fecBlock_framesRun {u : FrUnit} (h : u.Working) (hin : frInband u.cfg = true) (k : Nat)
    (input : List Byte) :
    (framesRun k u input).unit.fecBlock.toNat = (u.fecBlock.toNat + k) % u.fecBlocks.toNat := by
  induction k generalizing u input with
  | zero =>
    obtain ⟨-, -, hblock⟩ := h.1.configured h.2
    exact (Nat.mod_eq_of_lt (hblock hin)).symm
  | succ k ih =>
    obtain ⟨hcfg, hblocks, -⟩ := (FrUnit.SameConfig.refl u).frameRun input
    rw [framesRun, ih (h.frameRun input) (by rw [hcfg, hin]), toNat_fecBlock_frameRun h hin, hblocks, Nat.mod_add_mod,
      Nat.add_assoc, Nat.add_comm 1]

/-- Settles O40: the counter goes up by one per frame, and frozen at 0 it is in every legal unit without in-band
signalling. -/
theorem fecBlockCycles : Obligations.FecBlockCycles := by
  intro u k input hlegal hready v
  have hworking : u.Working := ⟨hlegal, hready.1⟩
  have hv : v.Working := hworking.framesRun k input
  obtain ⟨hcfg, hblocks, hrate, hkbch, -⟩ := u.sameConfig_framesRun k input
  refine ⟨hcfg, hblocks, hrate, hkbch, fun hin => ?_, fun hout => ?_⟩
  · have hblock := toNat_fecBlock_framesRun hworking hin k input
    have hinv : frInband v.cfg = true := (congrArg frInband hcfg).trans hin
    refine ⟨hblock, ?_⟩
    rw [← hblock]
    simp [framePadding, hinv, inbandBits, BitVec.toNat_eq, v]
  · have houtv : frInband v.cfg = false := (congrArg frInband hcfg).trans hout
    exact ⟨hv.1.fecFrozen houtv, by simp [framePadding, houtv]⟩

/-! ## Frames back to back -/

/-- A payload byte leaves a READY unit READY: a synchronization error is no fault (R133). -/
theorem ready_payloadByte {u : FrUnit} (b : Byte) (h : Ready u.status) : Ready (payloadByte u b).unit.status := by
  obtain ⟨hst, -⟩ | hst := payloadByte_status_cases u b <;> rw [hst]
  · exact h
  · simpa [Ready] using h

theorem ready_framesRun {u : FrUnit} (h : Ready u.status) (k : Nat) (input : List Byte) :
    Ready (framesRun k u input).unit.status := by
  refine framesRun_invariant (P := fun u => Ready u.status) (fun u input hu => ?_) h
  have hbody : Ready (payloadRun u (frameSlots u) input).unit.status :=
    payloadRun_invariant (P := fun u => Ready u.status) (fun _ b hu => ready_payloadByte b hu) hu
  rw [frameRun_unit]
  exact hbody

/-- The induction over the frames of a run that finds the bytes it needs: no frame is left, or one more is taken. -/
theorem framesRun_induction {P : Nat → FrUnit → List Byte → Prop} (done : ∀ u input, P 0 u input)
    (frame : ∀ k u input, u.Working → u.frameNeed ≤ input.length →
      P k (frameRun u input).unit (frameRun u input).rest → P (k + 1) u input)
    {u : FrUnit} (h : u.Working) {k : Nat} {input : List Byte} (henough : u.framesNeed k ≤ input.length) :
    P k u input := by
  induction k generalizing u input with
  | zero => exact done u input
  | succ k ih =>
    have hfirst : u.frameNeed ≤ input.length := by
      rw [framesNeed_eq_add] at henough
      exact Nat.le_of_add_right_le henough
    rw [framesNeed_succ h k hfirst] at henough
    exact frame k u input h hfirst (ih (h.frameRun input) (by rw [frameRun_rest, List.length_drop]; omega))

section FramesRun
variable {u : FrUnit} (h : u.Working) {k : Nat} {input : List Byte} (henough : u.framesNeed k ≤ input.length)
include h henough

/-- Frames leave the input behind the bytes they need (R123). -/
theorem framesRun_rest : (framesRun k u input).rest = input.drop (u.framesNeed k) := by
  refine framesRun_induction (P := fun k u input => (framesRun k u input).rest = input.drop (u.framesNeed k))
    (fun u input => rfl) (fun k u input h hfirst ih => ?_) h henough
  rw [framesRun, framesNeed_succ h k hfirst, ← List.drop_drop, ← frameRun_rest u input]
  exact ih

/-- Frames are kbch bits each (R88, R124). -/
theorem length_framesRun_bits : (framesRun k u input).bits.length = k * u.kbch.toNat := by
  refine framesRun_induction (P := fun k u input => (framesRun k u input).bits.length = k * u.kbch.toNat)
    (fun u input => (Nat.zero_mul _).symm) (fun k u input h hfirst ih => ?_) h henough
  obtain ⟨-, -, -, hkbch, -⟩ := (FrUnit.SameConfig.refl u).frameRun input
  rw [framesRun, List.length_append, length_frameRun_bits h hfirst, ih, hkbch, Nat.succ_mul, Nat.add_comm]

/-- The need of k + l frames is that of the first k, and that of the others from the unit these leave (R123). -/
theorem framesNeed_add (l : Nat) :
    u.framesNeed (k + l) = u.framesNeed k + (framesRun k u input).unit.framesNeed l := by
  refine framesRun_induction (P := fun k u input =>
    u.framesNeed (k + l) = u.framesNeed k + (framesRun k u input).unit.framesNeed l)
    (fun u input => ?_) (fun k u input h hfirst ih => ?_) h henough
  · rw [Nat.zero_add]; exact (Nat.zero_add _).symm
  · rw [Nat.succ_add, framesNeed_succ h _ hfirst, framesNeed_succ h k hfirst, ih, Nat.add_assoc]
    rfl

end FramesRun

/-- A run of k + l frames is the run of k frames and then that of l frames from what it left (R124). -/
theorem framesRun_add (u : FrUnit) (k l : Nat) (input : List Byte) : framesRun (k + l) u input =
    let first := framesRun k u input
    let later := framesRun l first.unit first.rest
    { later with bits := first.bits ++ later.bits, events := first.events ++ later.events } := by
  induction k generalizing u input with
  | zero => rw [Nat.zero_add]; rfl
  | succ k ih =>
    rw [Nat.succ_add]
    simp only [framesRun, ih, List.append_assoc]

/-! ## need(N) fits its word -/

/-- A slot takes at most two bytes (R123). -/
theorem needSlots_le (hem : Bool) (s c : Nat) : (needSlots hem s c).1 ≤ 2 * s := by
  induction s generalizing c with
  | zero => exact Nat.le_refl 0
  | succ s ih =>
    simp only [needSlots]
    split
    · have := ih (((c + 1) % packetSize + 1) % packetSize)
      dsimp only; omega
    · have := ih ((c + 1) % packetSize)
      dsimp only; omega

/-- A frame takes no more bytes than it has bits (R142). -/
theorem needFrames_le (u : FrUnit) (k c f : Nat) : needFrames u k c f ≤ k * u.kbch.toNat := by
  induction k generalizing c f with
  | zero => exact Nat.zero_le _
  | succ k ih =>
    rw [needFrames, Nat.succ_mul, Nat.add_comm (k * _)]
    refine Nat.add_le_add ((needSlots_le _ _ _).trans ?_) (ih _ _)
    omega

theorem need_le (u : FrUnit) (n : Nat) : need u n ≤ n :=
  (needFrames_le u _ _ _).trans (Nat.div_mul_le_self n _)

/-- More frames need no fewer bytes (R123). -/
theorem needFrames_le_add (u : FrUnit) (k l c f : Nat) : needFrames u k c f ≤ needFrames u (k + l) c f := by
  induction k generalizing c f with
  | zero => exact Nat.zero_le _
  | succ k ih =>
    rw [Nat.succ_add, needFrames, needFrames]
    exact Nat.add_le_add_left (ih _ _) _

/-! ## The command -/

/-- Elements that fill the buffer are all it holds (20_memory.md R62). -/
theorem emitInto_of_length_eq {α : Type} {out buffer : List α} (h : out.length = buffer.length) :
    emitInto out buffer = out := by
  rw [emitInto, h, List.drop_length, List.append_nil]

/-- The frames of FR_WORK N are N bits (R124). -/
theorem length_frWork_bits {u : FrUnit} (h : u.Working) {n : Nat} {input : List Byte} (hsize : n % u.kbch.toNat = 0)
    (henough : need u n ≤ input.length) : (framesRun (n / u.kbch.toNat) u input).bits.length = n := by
  rw [length_framesRun_bits h henough, Nat.div_mul_cancel (Nat.dvd_of_mod_eq_zero hsize)]

section FrWork
variable {n : Word} {s : State}

/-- What FR_WORK leads to when its checks pass, register by register (R124). -/
theorem exec_frWork_of_ready (hlegal : s.fr.Legal) (hready : Ready s.fr.status) (hsize : n.toNat % s.fr.kbch.toNat = 0)
    (hcap : n.toNat ≤ (handedFr s).output.length) (henough : need s.fr n.toNat ≤ (handedFr s).input.length) :
    let run := framesRun (n.toNat / s.fr.kbch.toNat) s.fr (handedFr s).input
    exec (.frWork n) s = .next { s with
      fr := run.unit
      log := s.log ++ run.events
      frBufs := s.frBufs.tail
      frReturned := s.frReturned ++ [{ handedFr s with
        output := overlay (Config.freeByte s.draws) (handedFr s).hostWrites 0
          (emitInto (elements run.bits) (handedFr s).output) }]
      responses := s.responses ++ [.ok [BitVec.ofNat 32 (need s.fr n.toNat), n]]
      draws := s.draws + 1 } := by
  have hconsumed : frConsumed (handedFr s) (frWorkRun n.toNat (handedFr s) s.fr) = need s.fr n.toNat := by
    rw [frConsumed, frWorkRun, framesRun_rest ⟨hlegal, hready.1⟩ henough, List.length_drop, ← need_eq_framesNeed,
      Nat.sub_sub_self henough]
  rw [exec_frWork_of_passed (frWorkCheck_eq_none.mpr ⟨hready, hsize, hcap, henough⟩), frWorked, hconsumed]
  rfl

/-- The state to which FR_WORK on input buffer `input` leads when it fills its output buffer and the host writes
nothing meanwhile; `bufs` are the buffers of later commands (R124). -/
def frFilled (n : Word) (input : List Byte) (bufs : List (Buffers Byte)) (s : State) : State :=
  let run := framesRun (n.toNat / s.fr.kbch.toNat) s.fr input
  { s with
    fr := run.unit
    log := s.log ++ run.events
    frBufs := bufs
    frReturned := s.frReturned ++ [⟨input, elements run.bits, []⟩]
    responses := s.responses ++ [.ok [BitVec.ofNat 32 (need s.fr n.toNat), n]]
    draws := s.draws + 1 }

/-- FR_WORK whose output buffer holds exactly N elements (R124). -/
theorem exec_frWork_of_exact {input out : List Byte} {bufs : List (Buffers Byte)} (hlegal : s.fr.Legal)
    (hready : Ready s.fr.status) (hsize : n.toNat % s.fr.kbch.toNat = 0) (henough : need s.fr n.toNat ≤ input.length)
    (hcap : out.length = n.toNat) (hbufs : s.frBufs = ⟨input, out, []⟩ :: bufs) :
    exec (.frWork n) s = .next (frFilled n input bufs s) := by
  have hhanded : handedFr s = ⟨input, out, []⟩ := by rw [handedFr, hbufs]; rfl
  have hfull := emitInto_of_length_eq (buffer := out)
    (by rw [length_elements, length_frWork_bits ⟨hlegal, hready.1⟩ hsize henough, hcap])
  have hexec := exec_frWork_of_ready (n := n) hlegal hready hsize (by rw [hhanded, hcap]) (by rwa [hhanded])
  simpa only [hhanded, hbufs, hfull, overlay_nil, List.tail_cons, frFilled] using hexec

end FrWork

/-- Settles O29: the command completes as `exec_frWork_of_ready` says, and its bits fill the first N elements. -/
theorem frWorkPacksFrames : Obligations.FrWorkPacksFrames := by
  refine ⟨fun u input => rfl, fun k u input => rfl, fun n s hlegal hready hsize hcap henough =>
    ⟨(need_le s.fr n.toNat).trans_lt n.isLt, _, _, rfl, exec_frWork_of_ready hlegal hready hsize hcap henough, ?_⟩⟩
  have hbits := length_frWork_bits ⟨hlegal, hready.1⟩ hsize henough
  refine ⟨hbits, ?_, fun j hj => ?_⟩
  · rw [length_overlay, length_emitInto (by rwa [length_elements, hbits])]
  · rw [getElem?_overlay, getElem?_emitInto, length_elements, hbits]
    simp only [Nat.zero_add, hj, if_false, elements, List.getElem?_map, Option.map_id']
    rfl

/-- The frames of N₁ + N₂ bits are those of N₁ bits, and then those of N₂ bits from the unit and the input these leave
(R124). -/
theorem framesRun_split {u : FrUnit} (h : u.Working) {n₁ n₂ : Nat} {input : List Byte} (hsize : n₁ % u.kbch.toNat = 0)
    (henough : need u (n₁ + n₂) ≤ input.length) :
    let first := framesRun (n₁ / u.kbch.toNat) u input
    let later := framesRun (n₂ / first.unit.kbch.toNat) first.unit (input.drop (need u n₁))
    need u n₁ ≤ input.length ∧ need u (n₁ + n₂) = need u n₁ + need first.unit n₂ ∧
    framesRun ((n₁ + n₂) / u.kbch.toNat) u input =
      { later with bits := first.bits ++ later.bits, events := first.events ++ later.events } := by
  have hdiv : (n₁ + n₂) / u.kbch.toNat = n₁ / u.kbch.toNat + n₂ / u.kbch.toNat :=
    Nat.add_div_of_dvd_right (Nat.dvd_of_mod_eq_zero hsize)
  have hfirst : need u n₁ ≤ input.length := by
    refine le_trans ?_ henough
    rw [need, need, hdiv]
    exact needFrames_le_add u _ _ _ _
  obtain ⟨-, -, -, hkbch, -⟩ := u.sameConfig_framesRun (n₁ / u.kbch.toNat) input
  refine ⟨hfirst, ?_, ?_⟩
  · rw [need_eq_framesNeed, hdiv, framesNeed_add h hfirst, need_eq_framesNeed, need_eq_framesNeed, hkbch]
  · simp only [hdiv, framesRun_add, framesRun_rest h hfirst, need_eq_framesNeed, hkbch]

/-- Settles O31: the second command runs the frames that the first left of the one run. -/
theorem frWorkSplitsIntoCommands : Obligations.FrWorkSplitsIntoCommands := by
  intro n₁ n₂ s input out₁ out₂ hlegal hready hsum hsize₁ hsize₂ hout₁ hout₂ henough
  have hworking : s.fr.Working := ⟨hlegal, hready.1⟩
  have hn : (n₁ + n₂).toNat = n₁.toNat + n₂.toNat := by rw [BitVec.toNat_add, Nat.mod_eq_of_lt hsum]
  have hsize : (n₁ + n₂).toNat % s.fr.kbch.toNat = 0 := by rw [hn, Nat.add_mod, hsize₁, hsize₂]; exact Nat.zero_mod _
  have hsplit := framesRun_split hworking hsize₁ henough
  have hfirst : (framesRun (n₁.toNat / s.fr.kbch.toNat) s.fr input).unit.Working := hworking.framesRun _ _
  have hready' := ready_framesRun hready (n₁.toNat / s.fr.kbch.toNat) input
  obtain ⟨-, -, -, hkbch, -⟩ := s.fr.sameConfig_framesRun (n₁.toNat / s.fr.kbch.toNat) input
  set first := framesRun (n₁.toNat / s.fr.kbch.toNat) s.fr input
  set later := framesRun (n₂.toNat / first.unit.kbch.toNat) first.unit (input.drop (need s.fr n₁.toNat))
  obtain ⟨henough₁, hneed, hrun⟩ := hsplit
  have henough₂ : need first.unit n₂.toNat ≤ (input.drop (need s.fr n₁.toNat)).length := by
    rw [List.length_drop]; omega
  have hsize₂' : n₂.toNat % first.unit.kbch.toNat = 0 := by rwa [hkbch]
  refine ⟨_, _, _, elements first.bits, elements later.bits, need first.unit n₂.toNat,
    exec_frWork_of_exact hlegal hready hsize (by rwa [hn]) (by rw [List.length_append, hout₁, hout₂, hn]) rfl,
    exec_frWork_of_exact hlegal hready hsize₁ henough₁ hout₁ rfl,
    exec_frWork_of_exact hfirst.1 hready' hsize₂' henough₂ hout₂ rfl, ?_, ?_, ?_, ?_, ?_, ?_⟩
  · simp only [frFilled, hn, hrun]; rfl
  · simp only [frFilled, hn, hrun, List.append_assoc]; rfl
  · simp only [frFilled, hn, hrun, elements, List.map_append]; rfl
  · simp only [frFilled, List.append_assoc, List.singleton_append]; rfl
  · simp only [frFilled, hn, hneed]
  · simp only [frFilled, List.append_assoc, List.singleton_append]; rfl

end Sys2Proof.Machine
end

section
/-! PROOFS about what the Synthesizer's commands check and answer: SY_CONFIG (41_synth.md R170 to R173), SY_FORECAST
(R182), and the order of the checks of SY_WORK (R183, R184). Each command that faults ends with the fault of its first
check that fails, so an order of faults is a fact about the chain of checks alone. -/

namespace Sys2Proof.Machine

open Sys2Proof

/-! ## SY_CONFIG -/

/-- SY_CONFIG whose checks fail ends with the fault of the first one that does (R170, R172). -/
theorem exec_syConfig_of_failed {w1 w2 : Word} {window : List Word} {s : State} {code : FaultCode}
    (failed : syConfigCheck w1 w2 window s.sy = some code) :
    exec (.syConfig w1 w2 window) s = .next (faultCommand .syConfig code s) := by
  simp only [exec, execSyConfig, failed, answerFault]

theorem exec_syConfig_of_passed {w1 w2 : Word} {window : List Word} {s : State}
    (passed : syConfigCheck w1 w2 window s.sy = none) : exec (.syConfig w1 w2 window) s =
      .next (respond (.ok [(syConfigured w1 w2 window s.sy).insertionItems])
        { s with sy := syConfigured w1 w2 window s.sy }) := by
  simp only [exec, execSyConfig, passed, answerOk]

/-- The checks of SY_CONFIG on an UNCONFIGURED unit (R170, R172). -/
theorem syConfigCheck_of_unconfigured {w1 w2 : Word} {window : List Word} {u : SyUnit} (h : Unconfigured u.status) :
    syConfigCheck w1 w2 window u = if w1 &&& syCfgReserved ≠ 0 then some .badOperand
      else if syFft w1 = 7 ∨ syGi w1 = 7 then some .configError
      else if window.any nonFinite = true then some .configError
      else if 2 ^ 32 ≤ insertionItemsOf w1 w2 then some .configError else none := by
  obtain ⟨hconf, hok⟩ := h
  simp [syConfigCheck, hconf, hok]

/-- A window has an entry that is an infinity or a NaN if one of its exponent fields is all ones (R170). -/
theorem any_nonFinite_iff {window : List Word} :
    window.any nonFinite = true ↔ ∃ x ∈ window, x.extractLsb' 23 8 = 0xFF := by
  simp [nonFinite]

/-- Settles O48: the premises are the checks of SY_CONFIG, which pass. -/
theorem syConfigConfigures : Obligations.SyConfigConfigures := by
  intro w1 w2 window s hunconf hreserved hfft hgi hwin fft np2 gi cps frameItems hitems
  have hfinite : window.any nonFinite = false := by
    rw [← Bool.not_eq_true, any_nonFinite_iff]
    exact fun ⟨x, hx, hinf⟩ => hwin x hx hinf
  exact exec_syConfig_of_passed
    (syConfigCheck_eq_none.mpr ⟨hunconf, hreserved, hfft, hgi, hfinite, hitems⟩)

/-- Settles O49: each premise lets the checks before the one it names pass, and fails that one. -/
theorem syConfigFaultOrder : Obligations.SyConfigFaultOrder := by
  intro w1 w2 window s
  refine ⟨fun hfaulted => exec_syConfig_of_failed ?_, fun ⟨hconf, hok⟩ => exec_syConfig_of_failed ?_,
    fun hunconf (hreserved : w1 &&& syCfgReserved ≠ 0) => exec_syConfig_of_failed ?_,
    fun hunconf (hreserved : w1 &&& syCfgReserved = 0) hbad => exec_syConfig_of_failed ?_⟩
  · simp [syConfigCheck, hfaulted]
  · simp [syConfigCheck, hconf, hok]
  · rw [syConfigCheck_of_unconfigured hunconf, if_pos hreserved]
  · rw [syConfigCheck_of_unconfigured hunconf, if_neg (not_not.mpr hreserved)]
    rw [← any_nonFinite_iff] at hbad
    split_ifs with hcodes hwindow hsize
    · rfl
    · rfl
    · rfl
    · obtain hfft | hgi | hinf | hlarge := hbad
      · exact (hcodes (.inl hfft)).elim
      · exact (hcodes (.inr hgi)).elim
      · exact (hwindow hinf).elim
      · exact (hsize hlarge).elim

/-- SY_CONFIG that answers `Ok` leaves the unit configured as the operands say (R170). -/
theorem sy_of_syConfig_ok {w1 w2 : Word} {window : List Word} {s t : State} {results : List Word}
    (h : exec (.syConfig w1 w2 window) s = .next t) (hok : t.responses = s.responses ++ [.ok results]) :
    t.sy = syConfigured w1 w2 window s.sy := by
  cases executes_of_exec h with
  | fault i code => simp at hok
  | syConfig passed => rfl

/-- Settles O50: the waveforms of a configured unit are those of its FFT code and its window. -/
theorem waveformsDependOnlyOnFftAndWindow : Obligations.WaveformsDependOnlyOnFftAndWindow := by
  intro w1 w1' w2 w2' window s s' t t' r r' hexec hok hexec' hok' (hfft : syFft w1 = syFft w1')
  rw [sy_of_syConfig_ok hexec hok, sy_of_syConfig_ok hexec' hok']
  simp only [syConfigured, hfft, and_self]

/-! ## The sizes of a configured unit -/

/-- A configured legal unit inserts 2048 samples before each frame (R171, R172). -/
theorem SyUnit.Legal.toNat_insertionItems {u : SyUnit} (h : u.Legal) (hconf : isConfigured u.status = true) :
    u.insertionItems.toNat = 2048 + u.frameItems.toNat := by
  obtain ⟨-, -, -, hitems, hderived⟩ := h.configured hconf
  rw [hderived]
  change (BitVec.ofNat 32 (insertionItemsOf u.cfg u.nData)).toNat =
    2048 + (BitVec.ofNat 32 (frameItemsOf u.cfg u.nData)).toNat
  rw [insertionItemsOf, preambleItems] at hitems ⊢
  rw [BitVec.toNat_ofNat, BitVec.toNat_ofNat, Nat.mod_eq_of_lt hitems, Nat.mod_eq_of_lt (by omega), Nat.add_comm]

/-! ## SY_FORECAST -/

/-- SY_FORECAST whose lifecycle check fails ends with its fault (R182). -/
theorem exec_syForecast_of_failed {n : Word} {s : State} {code : FaultCode}
    (failed : readyCheck s.sy.status = some code) :
    exec (.syForecast n) s = .next (faultCommand .syForecast code s) := by
  simp only [exec, execSyForecast, failed, answerFault]

theorem exec_syForecast_of_ready {n : Word} {s : State} (ready : Ready s.sy.status) : exec (.syForecast n) s =
    .next (respond (.ok [BitVec.ofNat 32 (syForecast s.sy n.toNat)]) s) := by
  simp only [exec, execSyForecast, readyCheck_eq_none.mpr ready, answerOk]

/-- The chunks in n output samples take no more input samples than n (R182). -/
theorem syForecast_le {u : SyUnit} (h : u.Legal) (hconf : isConfigured u.status = true) (n : Nat) :
    syForecast u n ≤ n := by
  have hitems := h.toNat_insertionItems hconf
  calc u.frameItems.toNat * (n / u.insertionItems.toNat)
      ≤ u.insertionItems.toNat * (n / u.insertionItems.toNat) := Nat.mul_le_mul_right _ (by omega)
    _ ≤ n := Nat.mul_div_le _ _

/-- Settles O51: the answer is the forecast, which the sizes of a legal unit bound by N. -/
theorem syForecastAnswers : Obligations.SyForecastAnswers := by
  intro n s
  refine ⟨fun hlegal hready => ⟨syForecast_le hlegal hready.1 n.toNat, exec_syForecast_of_ready hready⟩,
    fun hfaulted => ?_, fun hunconf => ?_⟩
  · exact exec_syForecast_of_failed (readyCheck_of_faulted hfaulted)
  · exact exec_syForecast_of_failed (readyCheck_of_unconfigured hunconf)

/-! ## The checks of SY_WORK -/

/-- SY_WORK whose checks fail ends with the fault of the first one that does (R183, R184). -/
theorem exec_syWork_of_failed {n : Word} {s : State} {code : FaultCode}
    (failed : syWorkCheck n.toNat (handedSy s) s.sy = some code) :
    exec (.syWork n) s = .next (faultCommand .syWork code s) := by
  simp only [exec, execSyWork, failed, answerFault]

theorem syWorkCheck_of_not_ready {n : Nat} {b : Buffers Sample} {u : SyUnit} {code : FaultCode}
    (h : readyCheck u.status = some code) : syWorkCheck n b u = some code := by
  simp only [syWorkCheck, h]

/-- The checks of SY_WORK on a READY unit (R184). -/
theorem syWorkCheck_of_ready {n : Nat} {b : Buffers Sample} {u : SyUnit} (ready : Ready u.status) :
    syWorkCheck n b u = if n % u.insertionItems.toNat ≠ 0 then some .badSize
      else if b.output.length < n then some .outputOverflow
      else if b.input.length < n / u.insertionItems.toNat * u.frameItems.toNat then some .inputUnderrun
      else none := by
  simp only [syWorkCheck, readyCheck_eq_none.mpr ready]

/-- Settles O53: each premise lets the checks before the one it names pass, and fails that one. -/
theorem syWorkFaultOrder : Obligations.SyWorkFaultOrder := by
  intro n s
  refine ⟨fun hfaulted => exec_syWork_of_failed ?_, fun hunconf => exec_syWork_of_failed ?_,
    fun hready hsize => exec_syWork_of_failed ?_, fun hready hsize hcap => exec_syWork_of_failed ?_,
    fun hready hsize hcap hinput => exec_syWork_of_failed ?_⟩
  · exact syWorkCheck_of_not_ready (readyCheck_of_faulted hfaulted)
  · exact syWorkCheck_of_not_ready (readyCheck_of_unconfigured hunconf)
  · rw [syWorkCheck_of_ready hready, if_pos hsize]
  · rw [syWorkCheck_of_ready hready, if_neg (not_not.mpr hsize), if_pos hcap]
  · rw [syWorkCheck_of_ready hready, if_neg (not_not.mpr hsize), if_neg (Nat.not_lt.mpr hcap), if_pos hinput]

end Sys2Proof.Machine
end

section
/-! PROOFS about the chunks that SY_WORK emits (41_synth.md R183 to R187, 30_encoding.md R92): where the parts of a
chunk stand, and that chunk f stands f chunk lengths behind the first one. -/

namespace Sys2Proof.Machine

open Sys2Proof

/-! ## One chunk -/

section Chunk
variable {u : SyUnit}

/-- The length of a chunk: the preamble and the samples of a frame (R187). -/
def SyUnit.chunkItems (u : SyUnit) : Nat := 2048 + u.frameItems.toNat

section Preamble
variable (h : u.Legal)
include h

/-- The leading part of the preamble has 482 samples (R185). -/
theorem SyUnit.Legal.length_leading : (u.p1Sh.drop 542).length = 482 := by simp [h.p1ShLength]

/-- The leading part of the preamble and the unshifted waveform have 1506 samples (R185). -/
theorem SyUnit.Legal.length_leading_append : (u.p1Sh.drop 542 ++ u.p1A).length = 1506 := by
  rw [List.length_append, h.length_leading, h.p1ALength]

theorem SyUnit.Legal.length_preamble : (preamble u).length = 2048 := by
  rw [preamble, List.length_append, h.length_leading_append, List.length_take, h.p1ShLength]; rfl

theorem length_chunk {input : List Sample} (henough : u.frameItems.toNat ≤ input.length) :
    (chunk u input).length = u.chunkItems := by
  rw [chunk, List.length_append, h.length_preamble, List.length_map, List.length_take, Nat.min_eq_left henough,
    SyUnit.chunkItems]

/-- Positions 0 to 481 of a chunk (R185). -/
theorem getElem?_chunk_leading (input : List Sample) {j : Nat} (hj : j < 482) :
    (chunk u input)[j]? = u.p1Sh[542 + j]? := by
  rw [chunk, List.getElem?_append_left (by rw [h.length_preamble]; omega), preamble,
    List.getElem?_append_left (by rw [h.length_leading_append]; omega),
    List.getElem?_append_left (by rwa [h.length_leading]), List.getElem?_drop]

/-- Positions 482 to 1505 of a chunk (R185). -/
theorem getElem?_chunk_waveform (input : List Sample) {j : Nat} (hj : j < 1024) :
    (chunk u input)[482 + j]? = u.p1A[j]? := by
  rw [chunk, List.getElem?_append_left (by rw [h.length_preamble]; omega), preamble,
    List.getElem?_append_left (by rw [h.length_leading_append]; omega),
    List.getElem?_append_right (by rw [h.length_leading]; omega), h.length_leading, Nat.add_sub_cancel_left]

/-- Positions 1506 to 2047 of a chunk (R185). -/
theorem getElem?_chunk_trailing (input : List Sample) {j : Nat} (hj : j < 542) :
    (chunk u input)[1506 + j]? = u.p1Sh[j]? := by
  rw [chunk, List.getElem?_append_left (by rw [h.length_preamble]; omega), preamble,
    List.getElem?_append_right (by rw [h.length_leading_append]; omega), h.length_leading_append,
    Nat.add_sub_cancel_left, List.getElem?_take_of_lt hj]

/-- The positions of a chunk behind its preamble (R186, R187). -/
theorem getElem?_chunk_data (input : List Sample) {j : Nat} (hj : j < u.frameItems.toNat) :
    (chunk u input)[2048 + j]? = (input[j]?).map (scaleSample u.scale) := by
  rw [chunk, List.getElem?_append_right (by rw [h.length_preamble]; omega), h.length_preamble,
    Nat.add_sub_cancel_left, List.getElem?_map, List.getElem?_take_of_lt hj]

end Preamble

/-! ## Chunks back to back -/

section Chunks
variable (h : u.Legal) {k : Nat} {input : List Sample} (henough : k * u.frameItems.toNat ≤ input.length)
include h henough

theorem length_chunks : (chunks u k input).length = k * u.chunkItems := by
  induction k generalizing input with
  | zero => exact (Nat.zero_mul _).symm
  | succ k ih =>
    rw [Nat.succ_mul] at henough
    rw [chunks, List.length_append, length_chunk h (by omega), ih (by rw [List.length_drop]; omega), Nat.succ_mul,
      Nat.add_comm]

/-- Chunk f is made of the input behind the f frames before it (R187). -/
theorem getElem?_chunks {f j : Nat} (hf : f < k) (hj : j < u.chunkItems) :
    (chunks u k input)[f * u.chunkItems + j]? = (chunk u (input.drop (f * u.frameItems.toNat)))[j]? := by
  induction f generalizing k input with
  | zero =>
    obtain ⟨k, rfl⟩ := Nat.exists_eq_succ_of_ne_zero (Nat.pos_iff_ne_zero.mp hf)
    rw [Nat.succ_mul] at henough
    rw [chunks, Nat.zero_mul, Nat.zero_add, Nat.zero_mul, List.drop_zero,
      List.getElem?_append_left (by rwa [length_chunk h (by omega)])]
  | succ f ih =>
    obtain ⟨k, rfl⟩ := Nat.exists_eq_succ_of_ne_zero (Nat.ne_zero_of_lt hf)
    rw [Nat.succ_mul] at henough
    have hposition : (f + 1) * u.chunkItems + j = u.chunkItems + (f * u.chunkItems + j) := by ring
    have hfirst : (chunk u input).length = u.chunkItems := length_chunk h (by omega)
    rw [chunks, hposition, List.getElem?_append_right (by rw [hfirst]; omega), hfirst, Nat.add_sub_cancel_left,
      ih (by rw [List.length_drop]; omega) (by omega), List.drop_drop, Nat.succ_mul, Nat.add_comm (f * _)]

end Chunks
end Chunk

/-! ## The command -/

/-- What SY_WORK has checked when it completes (R183, R184). -/
theorem syWorkCheck_eq_none {n : Nat} {b : Buffers Sample} {u : SyUnit} : syWorkCheck n b u = none ↔
    Ready u.status ∧ n % u.insertionItems.toNat = 0 ∧ n ≤ b.output.length ∧
      n / u.insertionItems.toNat * u.frameItems.toNat ≤ b.input.length := by
  rw [← readyCheck_eq_none]
  unfold syWorkCheck
  split
  · next hready => simp [hready]
  · next hready => simp only [hready, check_eq_none, not_not, Nat.not_lt, and_true, true_and]

/-- An element that the host leaves alone is the one the command left (70_reset_and_hazards.md R265). -/
theorem getElem?_overlay_of_notMem {α : Type} (free : Nat → α) {touched : List Nat} {k : Nat} (xs : List α)
    (hk : k ∉ touched) : (overlay free touched 0 xs)[k]? = xs[k]? := by
  rw [getElem?_overlay, Nat.zero_add]
  simp only [hk, if_false, Option.map_id']

/-- What the output buffer of a SY_WORK that completes holds (20_memory.md R62, 70_reset_and_hazards.md R265). -/
def syWorkOutput (n : Word) (s : State) : List Sample :=
  overlay (Config.freeSample s.draws) (handedSy s).hostWrites 0
    (emitInto (chunks s.sy (n.toNat / s.sy.insertionItems.toNat) (handedSy s).input) (handedSy s).output)

section SyWork
variable {n : Word} {s : State}

/-- What SY_WORK leads to when its checks pass, field by field (R183). -/
theorem exec_syWork_of_passed (passed : syWorkCheck n.toNat (handedSy s) s.sy = none) :
    exec (.syWork n) s = .next { s with
      syBufs := s.syBufs.tail
      syReturned := s.syReturned ++ [{ handedSy s with output := syWorkOutput n s }]
      responses := s.responses ++
        [.ok [BitVec.ofNat 32 (n.toNat / s.sy.insertionItems.toNat * s.sy.frameItems.toNat), n]]
      draws := s.draws + 1 } := by
  simp only [exec, execSyWork, passed, answerOk]
  rfl

variable (hlegal : s.sy.Legal) (passed : syWorkCheck n.toNat (handedSy s) s.sy = none)
include hlegal passed

/-- The chunks of SY_WORK N are N samples (R183). -/
theorem chunks_mul_chunkItems : n.toNat / s.sy.insertionItems.toNat * s.sy.chunkItems = n.toNat := by
  obtain ⟨hready, hsize, -, -⟩ := syWorkCheck_eq_none.mp passed
  have hitems : s.sy.insertionItems.toNat = s.sy.chunkItems := hlegal.toNat_insertionItems hready.1
  rw [← hitems, Nat.div_mul_cancel (Nat.dvd_of_mod_eq_zero hsize)]

theorem length_syWork_chunks :
    (chunks s.sy (n.toNat / s.sy.insertionItems.toNat) (handedSy s).input).length = n.toNat := by
  obtain ⟨-, -, -, henough⟩ := syWorkCheck_eq_none.mp passed
  rw [length_chunks hlegal henough, chunks_mul_chunkItems hlegal passed]

theorem length_syWorkOutput : (syWorkOutput n s).length = (handedSy s).output.length := by
  obtain ⟨-, -, hcap, -⟩ := syWorkCheck_eq_none.mp passed
  rw [syWorkOutput, length_overlay, length_emitInto (by rwa [length_syWork_chunks hlegal passed])]

/-- Element j of chunk f, if the host leaves it alone (R187). -/
theorem getElem?_syWorkOutput {f j : Nat} (hf : f < n.toNat / s.sy.insertionItems.toNat) (hj : j < s.sy.chunkItems)
    (hhost : f * s.sy.chunkItems + j ∉ (handedSy s).hostWrites) : (syWorkOutput n s)[f * s.sy.chunkItems + j]? =
      (chunk s.sy ((handedSy s).input.drop (f * s.sy.frameItems.toNat)))[j]? := by
  obtain ⟨-, -, -, henough⟩ := syWorkCheck_eq_none.mp passed
  have hinside : f * s.sy.chunkItems + j < n.toNat := by
    calc f * s.sy.chunkItems + j
        < f * s.sy.chunkItems + s.sy.chunkItems := Nat.add_lt_add_left hj _
      _ = (f + 1) * s.sy.chunkItems := (Nat.succ_mul _ _).symm
      _ ≤ n.toNat / s.sy.insertionItems.toNat * s.sy.chunkItems := Nat.mul_le_mul_right _ hf
      _ = n.toNat := chunks_mul_chunkItems hlegal passed
  rw [syWorkOutput, getElem?_overlay_of_notMem _ _ hhost, getElem?_emitInto, length_syWork_chunks hlegal passed,
    if_pos hinside, getElem?_chunks hlegal henough hf hj]

/-- The elements behind the chunks, where the host leaves them alone (20_memory.md R62). -/
theorem getElem?_syWorkOutput_behind {j : Nat} (hj : n.toNat ≤ j) (hhost : j ∉ (handedSy s).hostWrites) :
    (syWorkOutput n s)[j]? = (handedSy s).output[j]? := by
  rw [syWorkOutput, getElem?_overlay_of_notMem _ _ hhost, getElem?_emitInto, length_syWork_chunks hlegal passed,
    if_neg (Nat.not_lt.mpr hj)]

end SyWork

/-- Settles O52: the command completes as `exec_syWork_of_passed` says, and each chunk has its parts at their places. -/
theorem syWorkEmitsChunks : Obligations.SyWorkEmitsChunks := by
  intro n s hlegal hready hsize hcap henough k items
  have passed : syWorkCheck n.toNat (handedSy s) s.sy = none :=
    syWorkCheck_eq_none.mpr ⟨hready, hsize, hcap, henough⟩
  have hitems : items = s.sy.chunkItems := hlegal.toNat_insertionItems hready.1
  have hlong : s.sy.chunkItems = 2048 + s.sy.frameItems.toNat := rfl
  rw [hitems]
  refine ⟨syWorkOutput n s, exec_syWork_of_passed passed, length_syWorkOutput hlegal passed, hlong,
    fun f j hf hj hhost => ?_, fun f j hf hj hhost => ?_, fun f j hf hj hhost => ?_, fun f j hf hj hhost => ?_,
    fun j hj hhost => getElem?_syWorkOutput_behind hlegal passed hj hhost⟩
  · rw [getElem?_syWorkOutput hlegal passed hf (by omega) hhost, getElem?_chunk_leading hlegal _ hj]
  · rw [Nat.add_assoc] at hhost ⊢
    rw [getElem?_syWorkOutput hlegal passed hf (by omega) hhost, getElem?_chunk_waveform hlegal _ hj]
  · rw [Nat.add_assoc] at hhost ⊢
    rw [getElem?_syWorkOutput hlegal passed hf (by omega) hhost, getElem?_chunk_trailing hlegal _ hj]
  · rw [Nat.add_assoc] at hhost ⊢
    rw [getElem?_syWorkOutput hlegal passed hf (by omega) hhost, getElem?_chunk_data hlegal _ hj, List.getElem?_drop]
    rfl

end Sys2Proof.Machine
end

section
/-! PROOFS about the scaling product (41_synth.md R186, 00_scope.md R13). The exact product is a natural number `a` over
2^300; its rounding is a significand q on the grid of steps `2^(field + 150)` (`RoundsTo`), and no other binary32 value,
on that grid or on a finer one below it, is nearer. -/

namespace Sys2Proof.Machine

open Sys2Proof

/-! ## An encoding from its sign and its magnitude bits -/

section WithSign
variable (negative : Bool) {magnitude : Nat} (h : magnitude < 2 ^ 31)
include h

theorem toNat_withSign : (withSign negative magnitude).toNat = magnitude + if negative then 2 ^ 31 else 0 := by
  rw [withSign, BitVec.toNat_ofNat, Nat.mod_eq_of_lt]
  split <;> omega

theorem msb_withSign : (withSign negative magnitude).msb = negative := by
  rw [BitVec.msb_eq_decide, toNat_withSign negative h]
  cases negative <;> simp
  omega

theorem expField_withSign : expField (withSign negative magnitude) = magnitude / 2 ^ 23 := by
  rw [expField, BitVec.extractLsb'_toNat, toNat_withSign negative h, Nat.shiftRight_eq_div_pow]
  split <;> omega

theorem fracField_withSign : fracField (withSign negative magnitude) = magnitude % 2 ^ 23 := by
  rw [fracField, BitVec.extractLsb'_toNat, toNat_withSign negative h, Nat.shiftRight_zero]
  split <;> omega

theorem getLsbD_zero_withSign : (withSign negative magnitude).getLsbD 0 = decide (magnitude % 2 = 1) := by
  rw [BitVec.getLsbD, Nat.testBit_zero, toNat_withSign negative h]
  congr 1
  split <;> simp [Nat.add_mod]

/-- The NaNs stand behind the infinity. -/
theorem isNaN_withSign : isNaN (withSign negative magnitude) = decide (255 * 2 ^ 23 < magnitude) := by
  rw [isNaN, expField_withSign negative h, fracField_withSign negative h, Bool.eq_iff_iff]
  simp
  omega

/-- The finite encodings stand before the infinity. -/
theorem isFiniteEncoding_withSign :
    isFiniteEncoding (withSign negative magnitude) = decide (magnitude < 255 * 2 ^ 23) := by
  rw [isFiniteEncoding, expField_withSign negative h, Bool.eq_iff_iff]
  simp
  omega

end WithSign

/-! ## The cases of the product -/

/-- The magnitude bits of the product of two finite encodings. -/
def productMagnitude (x c : Word) : Nat :=
  if significand x = 0 ∨ significand c = 0 then 0
  else roundMagnitude (significand x * significand c) (scaleExp x + scaleExp c)

theorem productMagnitude_le (x c : Word) : productMagnitude x c ≤ 255 * 2 ^ 23 := by
  unfold productMagnitude
  split
  · exact Nat.zero_le _
  · exact Nat.min_le_right _ _

theorem productMagnitude_lt (x c : Word) : productMagnitude x c < 2 ^ 31 :=
  (productMagnitude_le x c).trans_lt (by decide)

section Cases
variable {x c : Word}

theorem isNaN_of_finite (h : isFiniteEncoding x = true) : isNaN x = false := by
  have hexp : expField x ≠ 255 := by simpa [isFiniteEncoding] using h
  simp [isNaN, hexp]

theorem isInf_of_finite (h : isFiniteEncoding x = true) : isInf x = false := by
  have hexp : expField x ≠ 255 := by simpa [isFiniteEncoding] using h
  simp [isInf, hexp]

/-- An encoding that is neither finite nor a NaN is an infinity. -/
theorem isInf_of_not_finite (hnan : isNaN x = false) (h : isFiniteEncoding x = false) : isInf x = true := by
  have hexp : expField x = 255 := by simpa [isFiniteEncoding] using h
  simpa [isNaN, isInf, hexp] using hnan

theorem significand_ne_zero_of_isInf (h : isInf x = true) : significand x ≠ 0 := by
  have hexp : expField x ≠ 0 := by
    have : expField x = 255 := (by simpa [isInf] using h : _ ∧ _).1
    omega
  simp [significand, hexp]

theorem mul32_of_finite (hx : isFiniteEncoding x = true) (hc : isFiniteEncoding c = true) :
    mul32 x c = withSign (x.msb ^^ c.msb) (productMagnitude x c) := by
  simp [mul32, productMagnitude, isNaN_of_finite, isInf_of_finite, hx, hc]

theorem mul32_of_isNaN (hx : isNaN x = true) : mul32 x c = quietNaN x c := by
  simp [mul32, hx]

variable (hc : isFiniteEncoding c = true)
include hc

theorem mul32_of_isInf (hnonzero : significand c ≠ 0) (hnan : isNaN x = false) (hx : isInf x = true) :
    mul32 x c = withSign (x.msb ^^ c.msb) (255 * 2 ^ 23) := by
  simp [mul32, hnan, hx, isNaN_of_finite hc, hnonzero, significand_ne_zero_of_isInf hx]

/-- The product of a number or an infinity with a finite nonzero number has the product of the signs, and magnitude bits
up to those of the infinity. -/
theorem mul32_of_not_isNaN (hnonzero : significand c ≠ 0) (hnan : isNaN x = false) :
    ∃ magnitude ≤ 255 * 2 ^ 23, mul32 x c = withSign (x.msb ^^ c.msb) magnitude := by
  cases hx : isFiniteEncoding x with
  | true => exact ⟨_, productMagnitude_le x c, mul32_of_finite hx hc⟩
  | false => exact ⟨_, le_rfl, mul32_of_isInf hc hnonzero hnan (isInf_of_not_finite hnan hx)⟩

end Cases

/-- The quiet NaN is a NaN with its quiet bit set, whatever its sign and payload (R186). -/
theorem isNaN_quietNaN (x c : Word) : isNaN (quietNaN x c) = true ∧ (quietNaN x c).getLsbD 22 = true := by
  have hpayload : (Config.nanPayload x c).toNat < 2 ^ 22 := (Config.nanPayload x c).isLt
  have hmagnitude : 255 * 2 ^ 23 + 2 ^ 22 + (Config.nanPayload x c).toNat < 2 ^ 31 := by omega
  constructor
  · rw [quietNaN, isNaN_withSign _ hmagnitude, decide_eq_true_iff]
    omega
  · rw [quietNaN, BitVec.getLsbD, toNat_withSign _ hmagnitude, Nat.testBit_eq_decide_div_mod_eq, decide_eq_true_iff]
    split <;> omega

/-- Settles O55: a product with a positive number keeps the sign, and the magnitude bits of a zero or an infinity. -/
theorem scalingSpecialValues : Obligations.ScalingSpecialValues := by
  intro x c hpos hc hnonzero
  refine ⟨fun hx => ?_, fun hnan => ?_, fun hnan => ?_⟩
  · have hzero : ∀ x : Word, isFiniteEncoding x = true → significand x = 0 → mul32 x c = withSign x.msb 0 :=
      fun x hx hsig => by rw [mul32_of_finite hx hc, productMagnitude, if_pos (.inl hsig), hpos, Bool.xor_false]
    have hinf : ∀ x : Word, isNaN x = false → isInf x = true → mul32 x c = withSign x.msb (255 * 2 ^ 23) :=
      fun x hnan hx => by rw [mul32_of_isInf hc hnonzero hnan hx, hpos, Bool.xor_false]
    obtain rfl | rfl | rfl | rfl := hx
    · exact hzero 0x00000000 (by decide) (by decide)
    · exact hzero 0x80000000 (by decide) (by decide)
    · exact hinf 0x7F800000 (by decide) (by decide)
    · exact hinf 0xFF800000 (by decide) (by decide)
  · rw [mul32_of_isNaN hnan]
    exact isNaN_quietNaN x c
  · obtain ⟨magnitude, hle, hmul⟩ := mul32_of_not_isNaN hc hnonzero hnan
    have hlt : magnitude < 2 ^ 31 := by omega
    rw [hmul, hpos, Bool.xor_false, isNaN_withSign _ hlt, msb_withSign _ hlt]
    exact ⟨decide_eq_false (by omega), rfl⟩

/-! ## Rounding to a grid -/

/-- q is the natural number nearest to a / d, and an even one if two are as near. -/
structure RoundsEven (a d q : Nat) : Prop where
  above : 2 * a ≤ (2 * q + 1) * d
  below : 2 * q * d ≤ 2 * a + d
  even : q % 2 = 1 → 2 * a < (2 * q + 1) * d ∧ 2 * q * d < 2 * a + d

/-- Rounding down: the remainder is at most half a step, and at half a step the quotient is even. -/
theorem roundsEven_down {q r d : Nat} (hr : 2 * r ≤ d) (htie : 2 * r = d → q % 2 = 0) :
    RoundsEven (q * d + r) d q where
  above := by linarith
  below := by linarith
  even hq := by
    have hlt : 2 * r < d := by omega
    exact ⟨by linarith, by linarith⟩

/-- Rounding up: the remainder is at least half a step, and at half a step the quotient is odd. -/
theorem roundsEven_up {q r d : Nat} (hr : d ≤ 2 * r) (hlt : r < d) (htie : 2 * r = d → q % 2 = 1) :
    RoundsEven (q * d + r) d (q + 1) where
  above := by linarith
  below := by linarith
  even hq := by
    have hgt : d < 2 * r := by omega
    exact ⟨by linarith, by linarith⟩

theorem roundsEven_shiftRightEven (m d : Nat) : RoundsEven m (2 ^ d) (shiftRightEven m d) := by
  have hdiv : m / 2 ^ d * 2 ^ d + m % 2 ^ d = m := Nat.div_add_mod' m (2 ^ d)
  simp only [shiftRightEven]
  split
  · next hup =>
    have hround := roundsEven_up (q := m / 2 ^ d) (r := m % 2 ^ d) (d := 2 ^ d) (by omega)
      (Nat.mod_lt _ (Nat.two_pow_pos d)) (by omega)
    rwa [hdiv] at hround
  · next hdown =>
    have hround := roundsEven_down (q := m / 2 ^ d) (r := m % 2 ^ d) (d := 2 ^ d) (by omega) (by omega)
    rwa [hdiv] at hround

/-- A number on the grid is its own rounding. -/
theorem roundsEven_self (q d : Nat) (hd : 0 < d) : RoundsEven (q * d) d q := by
  simpa using roundsEven_down (q := q) (r := 0) (d := d) (Nat.zero_le _) (by omega)

theorem RoundsEven.mul_right {a d q c : Nat} (h : RoundsEven a d q) (hc : 0 < c) : RoundsEven (a * c) (d * c) q where
  above := by linarith [Nat.mul_le_mul_right c h.above]
  below := by linarith [Nat.mul_le_mul_right c h.below]
  even hq := by
    obtain ⟨habove, hbelow⟩ := h.even hq
    exact ⟨by linarith [Nat.mul_lt_mul_of_pos_right habove hc], by linarith [Nat.mul_lt_mul_of_pos_right hbelow hc]⟩

/-- No number on the grid is nearer than the rounding, and if another is as near, then the rounding is even. -/
theorem RoundsEven.nearest {a d q : Nat} (h : RoundsEven a d q) (k : ℤ) :
    |(q * d - a : ℤ)| ≤ |k * d - a| ∧ (|(q * d - a : ℤ)| = |k * d - a| → k = q ∨ q % 2 = 0) := by
  have habove : (2 * a : ℤ) ≤ (2 * q + 1) * d := by exact_mod_cast h.above
  have hbelow : (2 * q * d : ℤ) ≤ 2 * a + d := by exact_mod_cast h.below
  have hhalf : 2 * |(q * d - a : ℤ)| ≤ d := by
    cases abs_cases (q * d - a : ℤ) <;> linarith
  have hstrict : q % 2 = 1 → 2 * |(q * d - a : ℤ)| < d := fun hodd => by
    obtain ⟨ha, hb⟩ := h.even hodd
    have ha' : (2 * a : ℤ) < (2 * q + 1) * d := by exact_mod_cast ha
    have hb' : (2 * q * d : ℤ) < 2 * a + d := by exact_mod_cast hb
    cases abs_cases (q * d - a : ℤ) <;> linarith
  obtain rfl | hk := eq_or_ne k q
  · exact ⟨le_rfl, fun _ => .inl rfl⟩
  have hother : (d : ℤ) ≤ 2 * |k * d - a| := by
    obtain hlt | hgt := lt_or_gt_of_ne hk
    · have hstep : (k + 1) * d ≤ (q * d : ℤ) := mul_le_mul_of_nonneg_right hlt (Int.natCast_nonneg d)
      linarith [neg_le_abs (k * d - a : ℤ)]
    · have hstep : (q + 1) * d ≤ (k * d : ℤ) := mul_le_mul_of_nonneg_right hgt (Int.natCast_nonneg d)
      linarith [le_abs_self (k * d - a : ℤ)]
  refine ⟨by linarith, fun heq => .inr ?_⟩
  by_contra hodd
  have := hstrict (by omega)
  linarith

/-! ## The grid of the binary32 values -/

/-- The exponent field that `roundMagnitude` chooses for `m * 2^e / 2^300`. -/
def roundField (m e : Nat) : Nat := max 1 (Nat.log2 m + 1 + e - 174)

/-- The significand that `roundMagnitude` rounds to. -/
def roundSignificand (m e : Nat) : Nat :=
  if e ≤ roundField m e + 150 then shiftRightEven m (roundField m e + 150 - e)
  else m * 2 ^ (e - (roundField m e + 150))

theorem roundMagnitude_eq (m e : Nat) :
    roundMagnitude m e = min ((roundField m e - 1) * 2 ^ 23 + roundSignificand m e) (255 * 2 ^ 23) := rfl

/-- The number `a / 2^300` rounds to the significand q with the exponent field `field`: q is nearest on the grid of that
exponent, where a is in range and, but for the subnormals, no smaller than the least significand with a hidden bit. -/
structure RoundsTo (a field q : Nat) : Prop where
  pos : 1 ≤ field
  nearest : RoundsEven a (2 ^ (field + 150)) q
  below : a < 2 ^ 24 * 2 ^ (field + 150)
  normal : field = 1 ∨ 2 ^ 23 * 2 ^ (field + 150) ≤ a

theorem roundsEven_roundSignificand (m e : Nat) :
    RoundsEven (m * 2 ^ e) (2 ^ (roundField m e + 150)) (roundSignificand m e) := by
  unfold roundSignificand
  split
  · next hle =>
    have hround := (roundsEven_shiftRightEven m (roundField m e + 150 - e)).mul_right (Nat.two_pow_pos e)
    rwa [← pow_add, Nat.sub_add_cancel hle] at hround
  · next hgt =>
    have hexact : m * 2 ^ e = m * 2 ^ (e - (roundField m e + 150)) * 2 ^ (roundField m e + 150) := by
      rw [Nat.mul_assoc, ← pow_add, Nat.sub_add_cancel (by omega)]
    rw [hexact]
    exact roundsEven_self _ _ (Nat.two_pow_pos _)

theorem roundsTo_roundSignificand {m : Nat} (e : Nat) (hm : m ≠ 0) :
    RoundsTo (m * 2 ^ e) (roundField m e) (roundSignificand m e) where
  pos := Nat.le_max_left _ _
  nearest := roundsEven_roundSignificand m e
  below := by
    have hexp : Nat.log2 m + 1 + e ≤ 24 + (roundField m e + 150) := by unfold roundField; omega
    calc m * 2 ^ e < 2 ^ (Nat.log2 m + 1) * 2 ^ e := Nat.mul_lt_mul_of_pos_right Nat.lt_log2_self (Nat.two_pow_pos e)
      _ = 2 ^ (Nat.log2 m + 1 + e) := (pow_add _ _ _).symm
      _ ≤ 2 ^ (24 + (roundField m e + 150)) := Nat.pow_le_pow_right (by decide) hexp
      _ = 2 ^ 24 * 2 ^ (roundField m e + 150) := pow_add _ _ _
  normal := by
    refine or_iff_not_imp_left.mpr fun hne => ?_
    have hexp : 23 + (roundField m e + 150) ≤ Nat.log2 m + e := by unfold roundField at hne ⊢; omega
    calc 2 ^ 23 * 2 ^ (roundField m e + 150) = 2 ^ (23 + (roundField m e + 150)) := (pow_add _ _ _).symm
      _ ≤ 2 ^ (Nat.log2 m + e) := Nat.pow_le_pow_right (by decide) hexp
      _ = 2 ^ Nat.log2 m * 2 ^ e := pow_add _ _ _
      _ ≤ m * 2 ^ e := Nat.mul_le_mul_right _ (Nat.log2_self_le hm)

theorem roundsTo_zero : RoundsTo 0 1 0 :=
  ⟨le_rfl, by simpa using roundsEven_self 0 (2 ^ 151) (Nat.two_pow_pos 151), by positivity, .inl rfl⟩

/-- Half a step of the grid of the largest finite values, times 2^300. -/
def topHalfStep : Nat := 2 ^ 403

section RoundsTo
variable {a field q : Nat} (h : RoundsTo a field q)
include h

/-- Rounding up reaches at most the next power of two. -/
theorem RoundsTo.le : q ≤ 2 ^ 24 := by
  have hstep := Nat.two_pow_pos (field + 150)
  have hlt : 2 * q * 2 ^ (field + 150) < (2 * 2 ^ 24 + 1) * 2 ^ (field + 150) := by
    linarith [h.nearest.below, h.below]
  have := Nat.lt_of_mul_lt_mul_right hlt
  omega

/-- But for the subnormals the significand has its hidden bit. -/
theorem RoundsTo.ge : field = 1 ∨ 2 ^ 23 ≤ q := by
  refine h.normal.imp_right fun hge => ?_
  have hle : 2 * 2 ^ 23 * 2 ^ (field + 150) ≤ (2 * q + 1) * 2 ^ (field + 150) := by
    linarith [h.nearest.above]
  have := Nat.le_of_mul_le_mul_right hle (Nat.two_pow_pos _)
  omega

/-- No number is nearer than the rounding, whether it is on the grid or below the least significand with a hidden bit;
if another is as near, then the rounding is even. -/
theorem RoundsTo.nearest_of {z : ℤ} (hz : (∃ k : ℤ, z = k * 2 ^ (field + 150)) ∨
      field ≠ 1 ∧ z < 2 ^ 23 * 2 ^ (field + 150)) :
    |(q * 2 ^ (field + 150) - a : ℤ)| ≤ |z - a| ∧
      (|(q * 2 ^ (field + 150) - a : ℤ)| = |z - a| → z = q * 2 ^ (field + 150) ∨ q % 2 = 0) := by
  have hgrid := h.nearest.nearest
  push_cast at hgrid
  obtain ⟨k, rfl⟩ | ⟨hfield, hsmall⟩ := hz
  · obtain ⟨hle, htie⟩ := hgrid k
    exact ⟨hle, fun heq => (htie heq).imp_left fun hk => by rw [hk]⟩
  · have hge : (2 ^ 23 * 2 ^ (field + 150) : ℤ) ≤ a := by exact_mod_cast h.normal.resolve_left hfield
    obtain ⟨hle, -⟩ := hgrid (2 ^ 23)
    rw [abs_of_nonpos (sub_nonpos.mpr hge)] at hle
    have hlt : |(q * 2 ^ (field + 150) - a : ℤ)| < |z - a| := by linarith [neg_le_abs (z - a : ℤ)]
    exact ⟨hlt.le, fun heq => absurd heq hlt.ne⟩

/-- The magnitude bits are those of a finite encoding exactly below 2^128 - 2^103, over 2^300. -/
theorem RoundsTo.finite_iff : (field - 1) * 2 ^ 23 + q < 255 * 2 ^ 23 ↔ a < (2 ^ 25 - 1) * topHalfStep := by
  have hpos := h.pos
  have hle := h.le
  have hbelow := h.below
  have htop : 0 < topHalfStep := by unfold topHalfStep; positivity
  obtain hlow | rfl | hhigh := lt_trichotomy field 254
  · have hstep : 2 ^ (field + 150) ≤ topHalfStep := by unfold topHalfStep; gcongr <;> omega
    exact iff_of_true (by omega) (by omega)
  · have hstep : 2 ^ (254 + 150) = 2 * topHalfStep := by rw [topHalfStep, ← pow_succ']
    obtain ⟨hup, hdown, heven⟩ := h.nearest
    rw [hstep] at hup hdown heven
    constructor
    · intro hfinite
      obtain hq | hq := Nat.mod_two_eq_zero_or_one q
      · have hq' : (2 * q + 2) * topHalfStep ≤ (2 ^ 25 - 1) * topHalfStep := Nat.mul_le_mul_right _ (by omega)
        linarith
      · obtain ⟨hlt, -⟩ := heven hq
        have hq' : (2 * q + 1) * topHalfStep ≤ (2 ^ 25 - 1) * topHalfStep := Nat.mul_le_mul_right _ (by omega)
        linarith
    · intro hsmall
      by_contra hinfinite
      obtain rfl : q = 2 ^ 24 := by omega
      omega
  · have hstep : 2 ^ 2 * topHalfStep ≤ 2 ^ (field + 150) := by
      rw [topHalfStep, ← pow_add]
      gcongr 2 ^ ?_
      · decide
      · omega
    have hnormal := h.normal.resolve_left (by omega)
    have hge := h.ge.resolve_left (by omega)
    exact iff_of_false (by omega) (by omega)

end RoundsTo

/-! ## Binary32 values as integers over 2^150 -/

/-- The value of an encoding, times 2^150 (41_synth.md R173). -/
def scaledValue (x : Word) : ℤ := bitSign x.msb * (significand x * 2 ^ scaleExp x)

theorem binary32Value_eq (x : Word) : binary32Value x = (scaledValue x : ℚ) / 2 ^ 150 := by
  cases hx : x.msb <;> simp [binary32Value, scaledValue, bitSign, hx]

theorem bitSign_xor : ∀ a b : Bool, bitSign (a ^^ b) = bitSign a * bitSign b := by decide

theorem bitSign_ne_zero : ∀ b : Bool, bitSign b ≠ 0 := by decide

theorem bitSign_mul_self : ∀ b : Bool, bitSign b * bitSign b = 1 := by decide

theorem abs_bitSign_mul (b : Bool) (z : ℤ) : |bitSign b * z| = |z| := by cases b <;> simp [bitSign]

theorem significand_lt (x : Word) : significand x < 2 ^ 24 := by
  have hfrac : fracField x < 2 ^ 23 := (x.extractLsb' 0 23).isLt
  unfold significand
  split <;> omega

theorem scaleExp_pos (x : Word) : 1 ≤ scaleExp x := by
  unfold scaleExp
  split <;> omega

/-- The magnitude of the exact product, times 2^300. -/
def productScaled (x c : Word) : Nat := significand x * significand c * 2 ^ (scaleExp x + scaleExp c)

theorem binary32Value_mul (x c : Word) : binary32Value x * binary32Value c =
    ((bitSign (x.msb ^^ c.msb) * productScaled x c : ℤ) : ℚ) / (2 ^ 150 * 2 ^ 150) := by
  have hscaled : bitSign (x.msb ^^ c.msb) * productScaled x c = scaledValue x * scaledValue c := by
    simp only [bitSign_xor, scaledValue, productScaled]
    push_cast
    ring
  rw [hscaled, binary32Value_eq, binary32Value_eq]
  push_cast
  ring

theorem abs_div_two_pow (z : ℤ) : |(z : ℚ) / (2 ^ 150 * 2 ^ 150)| = ((|z| : ℤ) : ℚ) / (2 ^ 150 * 2 ^ 150) := by
  rw [abs_div, Int.cast_abs, abs_of_pos (a := (2 ^ 150 * 2 ^ 150 : ℚ)) (by positivity)]

theorem abs_binary32Value_mul (x c : Word) :
    |binary32Value x * binary32Value c| = (productScaled x c : ℚ) / (2 ^ 150 * 2 ^ 150) := by
  rw [binary32Value_mul, abs_div_two_pow, abs_bitSign_mul, Nat.abs_cast, Int.cast_natCast]

/-- How far a value is from a product, compared in integers: both are turned to the product's sign. -/
theorem abs_binary32Value_sub_mul (z x c : Word) : |binary32Value z - binary32Value x * binary32Value c| =
    ((|bitSign (x.msb ^^ c.msb) * scaledValue z * 2 ^ 150 - productScaled x c| : ℤ) : ℚ) / (2 ^ 150 * 2 ^ 150) := by
  generalize hsign : (x.msb ^^ c.msb) = negative
  have hsq : bitSign negative * (bitSign negative * scaledValue z * 2 ^ 150 - productScaled x c) =
      scaledValue z * 2 ^ 150 - bitSign negative * productScaled x c := by
    linear_combination scaledValue z * 2 ^ 150 * bitSign_mul_self negative
  have hturn : binary32Value z - binary32Value x * binary32Value c =
      ((bitSign negative * (bitSign negative * scaledValue z * 2 ^ 150 - productScaled x c) : ℤ) : ℚ) /
        (2 ^ 150 * 2 ^ 150) := by
    rw [binary32Value_mul, binary32Value_eq, hsign, hsq]
    push_cast
    ring
  rw [hturn, abs_div_two_pow, abs_bitSign_mul]

/-- Every value is on the grid of an exponent up to its own, and below the least significand with a hidden bit of any
other one. -/
theorem scaledValue_on_grid (negative : Bool) (y : Word) (field : Nat) :
    (∃ k : ℤ, bitSign negative * scaledValue y * 2 ^ 150 = k * 2 ^ (field + 150)) ∨
      field ≠ 1 ∧ bitSign negative * scaledValue y * 2 ^ 150 < 2 ^ 23 * 2 ^ (field + 150) := by
  obtain hle | hlt := le_or_gt field (scaleExp y)
  · refine .inl ⟨bitSign negative * bitSign y.msb * significand y * 2 ^ (scaleExp y - field), ?_⟩
    have hpow : (2 : ℤ) ^ scaleExp y = 2 ^ (scaleExp y - field) * 2 ^ field := by
      rw [← pow_add, Nat.sub_add_cancel hle]
    rw [scaledValue, hpow, pow_add]
    ring
  · have hpos := scaleExp_pos y
    refine .inr ⟨by omega, ?_⟩
    have hmagnitude : bitSign negative * scaledValue y ≤ significand y * 2 ^ scaleExp y := by
      calc bitSign negative * scaledValue y ≤ |bitSign negative * scaledValue y| := le_abs_self _
        _ = |(significand y * 2 ^ scaleExp y : ℤ)| := by rw [abs_bitSign_mul, scaledValue, abs_bitSign_mul]
        _ = significand y * 2 ^ scaleExp y := abs_of_nonneg (by positivity)
    have hsmall : (significand y * 2 ^ scaleExp y : ℤ) < 2 ^ 23 * 2 ^ field := by
      calc (significand y * 2 ^ scaleExp y : ℤ) < 2 ^ 24 * 2 ^ scaleExp y :=
            mul_lt_mul_of_pos_right (by exact_mod_cast significand_lt y) (by positivity)
        _ = 2 ^ 23 * 2 ^ (scaleExp y + 1) := by ring
        _ ≤ 2 ^ 23 * 2 ^ field := by gcongr <;> omega
    rw [pow_add]
    linarith

/-! ## The product of two finite values -/

/-- The magnitude that stands behind an exponent field and a rounded significand, times 2^150: a subnormal, a normal
significand, or one that was rounded up to the next power of two. -/
theorem significand_mul_withSign (negative : Bool) {a field q : Nat} (h : RoundsTo a field q)
    (hlt : (field - 1) * 2 ^ 23 + q < 2 ^ 31) :
    significand (withSign negative ((field - 1) * 2 ^ 23 + q)) *
      2 ^ scaleExp (withSign negative ((field - 1) * 2 ^ 23 + q)) = q * 2 ^ field := by
  have hpos := h.pos
  rw [significand, scaleExp, expField_withSign _ hlt, fracField_withSign _ hlt]
  obtain hsubnormal | hnormal := Nat.lt_or_ge q (2 ^ 23)
  · obtain rfl := h.ge.resolve_right (by omega)
    have hexp : ((1 - 1) * 2 ^ 23 + q) / 2 ^ 23 = 0 := by omega
    have hfrac : ((1 - 1) * 2 ^ 23 + q) % 2 ^ 23 = q := by omega
    rw [if_pos hexp, if_pos hexp, hfrac]
  obtain hcarry | hbelow := h.le.eq_or_lt
  · have hexp : ((field - 1) * 2 ^ 23 + q) / 2 ^ 23 = field + 1 := by omega
    have hfrac : ((field - 1) * 2 ^ 23 + q) % 2 ^ 23 = 0 := by omega
    rw [hexp, hfrac, if_neg (by omega), if_neg (by omega), hcarry]
    ring
  · have hexp : ((field - 1) * 2 ^ 23 + q) / 2 ^ 23 = field := by omega
    have hfrac : ((field - 1) * 2 ^ 23 + q) % 2 ^ 23 + 2 ^ 23 = q := by omega
    rw [hexp, if_neg (by omega), if_neg (by omega), hfrac]

theorem scaledValue_withSign (negative : Bool) {a field q : Nat} (h : RoundsTo a field q)
    (hlt : (field - 1) * 2 ^ 23 + q < 2 ^ 31) :
    scaledValue (withSign negative ((field - 1) * 2 ^ 23 + q)) = bitSign negative * (q * 2 ^ field) := by
  rw [scaledValue, msb_withSign _ hlt]
  exact_mod_cast congrArg (fun v : ℕ => bitSign negative * v) (significand_mul_withSign negative h hlt)

/-- The magnitude bits of a product come from its rounding; from the infinity's on they are the infinity's. -/
theorem exists_roundsTo_product (x c : Word) : ∃ field q, RoundsTo (productScaled x c) field q ∧
    productMagnitude x c = min ((field - 1) * 2 ^ 23 + q) (255 * 2 ^ 23) := by
  unfold productMagnitude productScaled
  split
  · next hzero =>
    have hproduct : significand x * significand c = 0 := Nat.mul_eq_zero.mpr hzero
    refine ⟨1, 0, ?_, rfl⟩
    rw [hproduct, Nat.zero_mul]
    exact roundsTo_zero
  · next hnonzero =>
    have hproduct : significand x * significand c ≠ 0 := mt Nat.mul_eq_zero.mp hnonzero
    exact ⟨_, _, roundsTo_roundSignificand _ hproduct, roundMagnitude_eq _ _⟩

/-- The bound of the finite products: 2^128 - 2^103, halfway from the largest finite value to 2^128. -/
theorem abs_product_lt_iff (x c : Word) :
    |binary32Value x * binary32Value c| < 2 ^ 128 - 2 ^ 103 ↔ productScaled x c < (2 ^ 25 - 1) * topHalfStep := by
  have hbound : ((2 : ℚ) ^ 128 - 2 ^ 103) * (2 ^ 150 * 2 ^ 150) = ((2 ^ 25 - 1) * topHalfStep : ℕ) := by
    rw [topHalfStep, show 403 = 103 + 150 + 150 from rfl, pow_add, pow_add]
    norm_num
  rw [abs_binary32Value_mul, div_lt_iff₀ (by positivity), hbound, Nat.cast_lt]

/-- Settles O56: the finite magnitude bits stand for the rounding of the exact product, and no value is nearer; where
the bits are not finite, the product is at the bound or above. -/
theorem scalingRoundsToNearestEven : Obligations.ScalingRoundsToNearestEven := by
  intro x c y hx hc _ exact
  obtain ⟨field, q, hround, hmagnitude⟩ := exists_roundsTo_product x c
  have hmul := mul32_of_finite hx hc
  rw [hmagnitude] at hmul
  refine ⟨fun hsmall => ?_, fun hlarge => ?_⟩
  · have hfinite := hround.finite_iff.mpr ((abs_product_lt_iff x c).mp hsmall)
    have hlt : (field - 1) * 2 ^ 23 + q < 2 ^ 31 := by omega
    rw [Nat.min_eq_left hfinite.le] at hmul
    have hresult : bitSign (x.msb ^^ c.msb) * scaledValue (mul32 x c) * 2 ^ 150 = q * 2 ^ (field + 150) := by
      rw [hmul, scaledValue_withSign _ hround hlt, pow_add]
      linear_combination (q * 2 ^ field * 2 ^ 150 : ℤ) * bitSign_mul_self (x.msb ^^ c.msb)
    obtain ⟨hle, htie⟩ := hround.nearest_of (scaledValue_on_grid (x.msb ^^ c.msb) y field)
    rw [← hresult] at hle htie
    rw [abs_binary32Value_sub_mul, abs_binary32Value_sub_mul]
    refine ⟨?_, ?_, fun heq => ?_⟩
    · rw [hmul, isFiniteEncoding_withSign _ hlt]
      exact decide_eq_true hfinite
    · gcongr
    · have heq' := (div_left_inj' (by positivity)).mp heq
      obtain hsame | heven := htie (by exact_mod_cast heq')
      · left
        have hscaled := mul_left_cancel₀ (bitSign_ne_zero _) (mul_right_cancel₀ (by positivity) hsame)
        rw [binary32Value_eq, binary32Value_eq, hscaled]
      · right
        rw [hmul, getLsbD_zero_withSign _ hlt]
        exact decide_eq_false (by omega)
  · have hinfinite := mt hround.finite_iff.mp (mt (abs_product_lt_iff x c).mpr (not_lt.mpr hlarge))
    rw [Nat.min_eq_right (Nat.not_lt.mp hinfinite)] at hmul
    rw [hmul]
    cases x.msb <;> cases c.msb <;> rfl

end Sys2Proof.Machine
end

section
/-! PROOFS about the P1 sequences and the spectrum (41_synth.md R174 to R178): each list of the model element by
element. -/

namespace Sys2Proof.Machine

open Sys2Proof

/-! ## The signalling sequence -/

/-- Bit 8 j + b of a byte sequence is bit b of byte j, MSB-first (00_scope.md R10, R11). -/
theorem getElem?_flatMap_bitsMSB (bytes : List Byte) (j : Nat) {b : Nat} (hb : b < 8) :
    (bytes.flatMap fun v => bitsMSB v)[8 * j + b]? = (bytes[j]?).map fun v => v.getLsbD (7 - b) := by
  induction bytes generalizing j with
  | nil => simp
  | cons v vs ih =>
    rw [List.flatMap_cons]
    cases j with
    | zero =>
      rw [List.getElem?_append_left (by simpa using hb)]
      simp [bitsMSB, hb]
    | succ j =>
      rw [List.getElem?_append_right (by simp; omega), length_bitsMSB,
        show 8 * (j + 1) + b - 8 = 8 * j + b by omega, ih, List.getElem?_cons_succ]

/-- A stored row, byte 0 first and each byte MSB-first (R174). -/
def rowBits {n : Nat} (row : Fin n → Byte) : List Bool := (List.finRange n).flatMap fun j => bitsMSB (row j)

section RowBits
variable {n : Nat} (row : Fin n → Byte)

theorem rowBits_eq : rowBits row = ((List.finRange n).map row).flatMap fun v => bitsMSB v := by
  rw [rowBits, List.flatMap_map]

@[simp] theorem length_rowBits : (rowBits row).length = 8 * n := by
  rw [rowBits_eq, length_flatMap_bitsMSB, List.length_map, List.length_finRange]

theorem getElem?_rowBits (j : Fin n) {b : Nat} (hb : b < 8) :
    (rowBits row)[8 * j.val + b]? = some ((row j).getLsbD (7 - b)) := by
  rw [rowBits_eq, getElem?_flatMap_bitsMSB _ _ hb]
  simp

end RowBits

theorem signalling_eq (fft : BitVec 3) : signalling fft = rowBits (Config.s1Rows 0) ++
    (rowBits (Config.s2Rows (Fin.ofNat 16 (2 * fft.toNat))) ++ rowBits (Config.s1Rows 0)) :=
  List.append_assoc _ _ _

theorem length_signalling (fft : BitVec 3) : (signalling fft).length = 384 := by simp [signalling_eq]

/-- The first 64 bits and the last 64 ones are S1 (R174). -/
theorem getElem?_signalling_s1 (fft : BitVec 3) (j : Fin 8) {b : Nat} (hb : b < 8) :
    (signalling fft)[8 * j.val + b]? = some ((Config.s1Rows 0 j).getLsbD (7 - b)) ∧
      (signalling fft)[320 + 8 * j.val + b]? = some ((Config.s1Rows 0 j).getLsbD (7 - b)) := by
  have hj := j.isLt
  rw [signalling_eq]
  constructor
  · rw [List.getElem?_append_left (by rw [length_rowBits]; omega), getElem?_rowBits _ j hb]
  · rw [List.getElem?_append_right (by rw [length_rowBits]; omega),
      List.getElem?_append_right (by simp only [length_rowBits]; omega), length_rowBits, length_rowBits,
      show 320 + 8 * j.val + b - 8 * 8 - 8 * 32 = 8 * j.val + b by omega, getElem?_rowBits _ j hb]

/-- The 256 bits between are S2 (R174). -/
theorem getElem?_signalling_s2 (fft : BitVec 3) (j : Fin 32) {b : Nat} (hb : b < 8) :
    (signalling fft)[64 + 8 * j.val + b]? =
      some ((Config.s2Rows (Fin.ofNat 16 (2 * fft.toNat)) j).getLsbD (7 - b)) := by
  have hj := j.isLt
  rw [signalling_eq, List.getElem?_append_right (by rw [length_rowBits]; omega),
    List.getElem?_append_left (by simp only [length_rowBits]; omega), length_rowBits,
    show 64 + 8 * j.val + b - 8 * 8 = 8 * j.val + b by omega, getElem?_rowBits _ j hb]

/-! ## The modulation values -/

/-- `d[i]` of the differential encoding of `ms` from `d[0] = prev` (R175). -/
def diffBit (prev : Bool) (ms : List Bool) (i : Nat) : Bool := (ms.take i).foldl xor prev

theorem diffBit_succ (prev : Bool) {ms : List Bool} {i : Nat} {m : Bool} (hm : ms[i]? = some m) :
    diffBit prev ms (i + 1) = (diffBit prev ms i ^^ m) := by
  rw [diffBit, List.take_add_one, hm, List.foldl_append]
  rfl

@[simp] theorem length_diffEncode (prev : Bool) (ms : List Bool) : (diffEncode prev ms).length = ms.length := by
  induction ms generalizing prev with
  | nil => rfl
  | cons m ms ih => simp [diffEncode, ih]

theorem getElem?_diffEncode (prev : Bool) {ms : List Bool} {i : Nat} (hi : i < ms.length) :
    (diffEncode prev ms)[i]? = some (diffBit prev ms (i + 1)) := by
  induction ms generalizing prev i with
  | nil => simp at hi
  | cons m ms ih =>
    cases i with
    | zero => rfl
    | succ i => exact ih (prev ^^ m) (by simpa using hi)

/-- The scrambling register after one step (R176). -/
def scramblerStep (r : BitVec 18) : BitVec 18 := Config.p1PrbsTaps.shift r (tapXor r)

@[simp] theorem length_scrambling (k : Nat) (r : BitVec 18) : (scrambling k r).length = k := by
  induction k generalizing r with
  | zero => rfl
  | succ k ih => simp [scrambling, ih]

theorem getElem?_scrambling (r : BitVec 18) {k i : Nat} (hi : i < k) : (scrambling k r)[i]? =
    some (Config.p1PrbsTaps.output (scramblerStep^[i] r) (tapXor (scramblerStep^[i] r))) := by
  induction k generalizing r i with
  | zero => omega
  | succ k ih =>
    cases i with
    | zero => rfl
    | succ i => exact ih (scramblerStep r) (by omega)

theorem bitSign_eq : ∀ b : Bool, bitSign b = 1 - 2 * b.toInt := by decide

@[simp] theorem length_modulation (fft : BitVec 3) : (modulation fft).length = 384 := by
  simp [modulation, length_signalling]

theorem getElem?_modulation (fft : BitVec 3) {i : Nat} (hi : i < 384) :
    (modulation fft)[i]? = some (bitSign (diffBit true (signalling fft) (i + 1)) *
      bitSign (Config.p1PrbsTaps.output (scramblerStep^[i] 0x4E46) (tapXor (scramblerStep^[i] 0x4E46)))) := by
  rw [modulation, List.getElem?_zipWith, getElem?_diffEncode _ (by rwa [length_signalling]), getElem?_scrambling _ hi]

/-- A modulation value is +1 or -1 (R177). -/
theorem modulation_eq_one_or {fft : BitVec 3} {i : Nat} {v : Int} (hv : (modulation fft)[i]? = some v) :
    v = 1 ∨ v = -1 := by
  have hsigns : ∀ a b : Bool, bitSign a * bitSign b = 1 ∨ bitSign a * bitSign b = -1 := by decide
  have hi : i < 384 := by
    rw [← length_modulation fft]
    exact (List.getElem?_eq_some_iff.mp hv).1
  rw [getElem?_modulation fft hi] at hv
  exact Option.some.inj hv ▸ hsigns _ _

/-! ## The spectrum -/

@[simp] theorem length_carrierBins : carrierBins.length = 384 := by simp [carrierBins]

theorem nodup_carrierBins : carrierBins.Nodup := by
  refine (List.nodup_finRange 384).map fun i j hij => ?_
  have hvalue : Config.p1CarrierOrder (i.castLE (by decide)) = Config.p1CarrierOrder (j.castLE (by decide)) :=
    Fin.ext (Nat.add_right_cancel hij)
  exact Fin.castLE_injective _ (Config.p1CarrierOrder.injective hvalue)

theorem carrierBins_range {k : Nat} (hk : k ∈ carrierBins) : 86 ≤ k ∧ k < 1024 := by
  obtain ⟨i, -, rfl⟩ := List.mem_map.mp hk
  have hvalue := (Config.p1CarrierOrder (i.castLE (by decide))).isLt
  omega

/-- Looking a key up among distinct ones finds the value at its position. -/
theorem lookup_zip_of_getElem? {α β : Type} [DecidableEq α] {keys : List α} {values : List β} {i : Nat} {k : α} {v : β}
    (hnodup : keys.Nodup) (hk : keys[i]? = some k) (hv : values[i]? = some v) :
    (keys.zip values).lookup k = some v := by
  induction keys generalizing values i with
  | nil => simp at hk
  | cons key keys ih =>
    obtain ⟨hnew, hrest⟩ := List.nodup_cons.mp hnodup
    cases values with
    | nil => simp at hv
    | cons value values =>
      cases i with
      | zero => simp_all
      | succ i =>
        have hne : (k == key) = false := by
          rw [beq_eq_false_iff_ne]
          rintro rfl
          exact hnew (List.mem_of_getElem? hk)
        rw [List.zip_cons_cons, List.lookup_cons, hne]
        exact ih hrest hk hv

/-- A key that is not there is not found. -/
theorem lookup_zip_of_notMem {α β : Type} [DecidableEq α] {keys : List α} {values : List β} {k : α} (hk : k ∉ keys) :
    (keys.zip values).lookup k = none := by
  rw [List.lookup_eq_none_iff]
  intro p hp
  have hne : k ≠ p.1 := fun heq => hk (heq ▸ (List.of_mem_zip hp).1)
  simpa using hne

/-- Modulation value i stands at the bin of carrier i (R178). -/
theorem modulation_eq_spectrum (fft : BitVec 3) {i k : Nat} (hi : i < 384) (hk : carrierBins[i]? = some k) :
    (modulation fft)[i]? = some (spectrum fft k) := by
  have hv := List.getElem?_eq_getElem (l := modulation fft) (by rwa [length_modulation])
  rw [spectrum, lookup_zip_of_getElem? nodup_carrierBins hk hv, hv]
  rfl

theorem spectrum_eq_one_or (fft : BitVec 3) {k : Nat} (hk : k ∈ carrierBins) :
    spectrum fft k = 1 ∨ spectrum fft k = -1 := by
  obtain ⟨i, hget⟩ := List.mem_iff_getElem?.mp hk
  have hi : i < 384 := by
    rw [← length_carrierBins]
    exact (List.getElem?_eq_some_iff.mp hget).1
  exact modulation_eq_one_or (modulation_eq_spectrum fft hi hget)

theorem spectrum_eq_zero (fft : BitVec 3) {k : Nat} (hk : k ∉ carrierBins) : spectrum fft k = 0 := by
  rw [spectrum, lookup_zip_of_notMem hk]
  rfl

/-- Settles O57: the lists of the model element by element; d is `diffBit` and r the iterated register. -/
theorem spectrumShape : Obligations.SpectrumShape := by
  intro fft
  refine ⟨length_signalling fft, length_modulation fft, fun j b hb => getElem?_signalling_s1 fft j hb,
    fun row j b hrow hb => ?_, ⟨diffBit true (signalling fft), fun i => scramblerStep^[i] 0x4E46, rfl, rfl,
      fun i hi => ⟨?_, ?_, ?_⟩⟩, length_carrierBins, nodup_carrierBins, fun k => carrierBins_range,
    fun i hi k => modulation_eq_spectrum fft hi, fun k => spectrum_eq_one_or fft, fun k => spectrum_eq_zero fft,
    fun k hk => ?_⟩
  · obtain rfl : row = Fin.ofNat 16 (2 * fft.toNat) := by
      have hfft := fft.isLt
      exact Fin.ext (by rw [hrow, Fin.val_ofNat]; omega)
    exact getElem?_signalling_s2 fft j hb
  · have hm := List.getElem?_eq_getElem (l := signalling fft) (by rwa [length_signalling])
    rw [diffBit_succ true hm, hm, ← Bool.xor_assoc, Bool.xor_self, Bool.false_xor]
  · exact Function.iterate_succ_apply' scramblerStep i _
  · rw [getElem?_modulation fft hi, bitSign_eq, bitSign_eq]
    rfl
  · rw [shiftedSpectrum, show ((k + 1) % 1024 + 1023) % 1024 = k by omega]

end Sys2Proof.Machine
end

section
/-! PROOFS about the exact waveforms (41_synth.md R179, R181): a waveform is an inverse discrete Fourier transform whose
phases are the powers of a primitive 1024th root of unity. The shift law is an index shift of its sum; the energy law is
Parseval's identity. -/

namespace Sys2Proof.Machine

open Sys2Proof

/-! ## Phases -/

theorem phase_eq_pow (t : Nat) : phase t = phase 1 ^ t := by
  rw [phase, phase, ← Complex.exp_nat_mul]
  congr 1
  push_cast
  ring

/-- The phase of one 1024th of a turn is a primitive 1024th root of unity. -/
theorem isPrimitiveRoot_phase_one : IsPrimitiveRoot (phase 1) 1024 := by
  simpa [phase] using Complex.isPrimitiveRoot_exp 1024 (by decide)

theorem phase_add (t u : Nat) : phase (t + u) = phase t * phase u := by
  rw [phase_eq_pow, pow_add, ← phase_eq_pow, ← phase_eq_pow]

theorem phase_mul (t n : Nat) : phase (t * n) = phase t ^ n := by
  rw [phase_eq_pow, pow_mul, ← phase_eq_pow]

/-- Full turns do not count. -/
theorem phase_eq_of_mod_eq {t u : Nat} (h : t % 1024 = u % 1024) : phase t = phase u := by
  have hturn : phase 1 ^ 1024 = 1 := isPrimitiveRoot_phase_one.pow_eq_one
  rw [phase_eq_pow, phase_eq_pow u, pow_eq_pow_mod t hturn, h, ← pow_eq_pow_mod u hturn]

theorem phase_mod (t : Nat) : phase (t % 1024) = phase t := phase_eq_of_mod_eq (Nat.mod_mod t 1024)

theorem phase_mod_mul (t n : Nat) : phase (t % 1024 * n) = phase (t * n) := by
  rw [phase_mul, phase_mod, ← phase_mul]

theorem phase_mul_full (t : Nat) : phase (t * 1024) = 1 := by
  rw [← phase_mod, Nat.mul_mod_left]
  simp [phase]

theorem norm_phase (t : Nat) : ‖phase t‖ = 1 := by
  have hangle : 2 * Real.pi * Complex.I * t / 1024 = ((2 * Real.pi * t / 1024 : ℝ) : ℂ) * Complex.I := by
    push_cast
    ring
  rw [phase, hangle, Complex.norm_exp_ofReal_mul_I]

theorem phase_ne_zero (t : Nat) : phase t ≠ 0 := Complex.exp_ne_zero _

/-! ## A waveform as a sum over the bins -/

/-- The sum of R179 before it is divided: value k of the spectrum, times the window's there, at its phase. -/
noncomputable def binSum (z : Nat → ℝ) (n : Nat) : ℂ :=
  ∑ k ∈ Finset.range 1024, (z k : ℂ) * phase ((k + 512) * n)

/-- A spectrum times the window, bin by bin (R179). -/
noncomputable def windowed (z : Nat → Int) (window : List Word) (k : Nat) : ℝ :=
  z k * ((binary32Value (window.getD k 0) : ℚ) : ℝ)

theorem exactComplex_transform (z : Nat → Int) (window : List Word) (n : Nat) :
    exactComplex (transform z window n) = binSum (windowed z window) n / (Real.sqrt 384 : ℂ) := by
  rw [exactComplex, transform, List.map_map, ← List.sum_toFinset _ List.nodup_range, List.toFinset_range, binSum]
  simp only [Function.comp_apply, phase_mod, phase_mod_mul, windowed, Complex.ofReal_mul, Complex.ofReal_intCast,
    Complex.ofReal_ratCast]

/-- Settles O60: the phases are exponentials, and the windowed spectrum is a product. -/
theorem waveformIsInverseTransform : Obligations.WaveformIsInverseTransform := by
  intro fft window n value
  have hphase : ∀ k : Nat, phase ((k + 512) * n) =
      Complex.exp (2 * Real.pi * Complex.I * (((k + 512) % 1024 : ℕ) : ℂ) * n / 1024) := fun k => by
    rw [← phase_mod_mul, phase, Nat.cast_mul, mul_assoc (2 * Real.pi * Complex.I)]
  have hvalue : ∀ z : Nat → Int, exactComplex (transform z window n) = value z := fun z => by
    rw [exactComplex_transform]
    simp only [value, binSum, windowed, hphase, Complex.ofReal_mul, Complex.ofReal_intCast, Complex.ofReal_ratCast]
  exact ⟨hvalue _, hvalue _⟩

/-! ## Shift -/

/-- Values moved up by one bin of 1024, against phases that come round after 1024 bins. -/
theorem sum_shifted_bins (x : Nat → ℂ) {g : Nat → ℂ} (hround : g 1024 = g 0) :
    ∑ k ∈ Finset.range 1024, x ((k + 1023) % 1024) * g k = ∑ k ∈ Finset.range 1024, x k * g (k + 1) := by
  have hinner : ∀ k ∈ Finset.range 1023, x ((k + 1 + 1023) % 1024) * g (k + 1) = x k * g (k + 1) := fun k hk => by
    have hk' : k < 1023 := Finset.mem_range.mp hk
    rw [show (k + 1 + 1023) % 1024 = k by omega]
  rw [Finset.sum_range_succ' _ 1023, Finset.sum_range_succ _ 1023, Finset.sum_congr rfl hinner, hround]

/-- With the window 1.0 everywhere a windowed spectrum is the spectrum (R181). -/
theorem windowed_ones (z : Nat → Int) {k : Nat} (hk : k < 1024) :
    windowed z (List.replicate 1024 0x3F800000) k = z k := by
  have hone : binary32Value 0x3F800000 = 1 := by
    rw [binary32Value_eq, show scaledValue 0x3F800000 = 2 ^ 150 by decide]
    norm_num
  have hget : (List.replicate 1024 (0x3F800000 : Word)).getD k 0 = 0x3F800000 := by
    rw [List.getD_eq_getElem _ _ (by rwa [List.length_replicate]), List.getElem_replicate]
  rw [windowed, hget, hone, Rat.cast_one, mul_one]

/-- Settles O58: the sum of the shifted spectrum, with its index shifted back, has one more 1024th of n turns in each
phase. -/
theorem waveformShiftLaw : Obligations.WaveformShiftLaw := by
  intro fft n ones
  have hones : ∀ z : Nat → Int, binSum (windowed z ones) n =
      ∑ k ∈ Finset.range 1024, (z k : ℂ) * phase ((k + 512) * n) := fun z =>
    Finset.sum_congr rfl fun k hk => by rw [windowed_ones z (Finset.mem_range.mp hk), Complex.ofReal_intCast]
  have hround : phase ((1024 + 512) * n) = phase ((0 + 512) * n) := phase_eq_of_mod_eq (by omega)
  have hshift : binSum (windowed (shiftedSpectrum fft) ones) n = binSum (windowed (spectrum fft) ones) n * phase n := by
    rw [hones, hones, Finset.sum_mul]
    simp only [shiftedSpectrum]
    rw [sum_shifted_bins (fun k => (spectrum fft k : ℂ)) (g := fun k => phase ((k + 512) * n)) hround]
    refine Finset.sum_congr rfl fun k _ => ?_
    rw [mul_assoc, ← phase_add]
    congr 2
    ring
  rw [exactSh, exactA, exactComplex_transform, exactComplex_transform, hshift, mul_div_right_comm]
  rfl

/-! ## Energy -/

/-- Phases of different bins are orthogonal over 1024 samples. -/
theorem sum_phase_mul_conj {k l : Nat} (hk : k < 1024) (hl : l < 1024) :
    ∑ n ∈ Finset.range 1024, phase ((k + 512) * n) * (starRingEnd ℂ) (phase ((l + 512) * n)) =
      if k = l then 1024 else 0 := by
  have hpow : ∀ n, phase ((k + 512) * n) * (starRingEnd ℂ) (phase ((l + 512) * n)) =
      (phase (k + 512) * (starRingEnd ℂ) (phase (l + 512))) ^ n := fun n => by
    rw [phase_mul, phase_mul, map_pow, mul_pow]
  have hunit : phase (l + 512) * (starRingEnd ℂ) (phase (l + 512)) = 1 := by
    rw [Complex.mul_conj, Complex.normSq_eq_norm_sq, norm_phase]
    norm_num
  simp only [hpow]
  split
  · next heq => simp [heq, hunit]
  · next hne =>
    have hturn : phase (k + 512) * (starRingEnd ℂ) (phase (l + 512)) ≠ 1 := fun hone => by
      have hsame : phase (k + 512) = phase (l + 512) :=
        mul_right_cancel₀ (right_ne_zero_of_mul_eq_one hunit) (hone.trans hunit.symm)
      rw [phase_add, phase_add l, mul_left_inj' (phase_ne_zero _), phase_eq_pow, phase_eq_pow l] at hsame
      exact hne (isPrimitiveRoot_phase_one.pow_inj hk hl hsame)
    have hround : (phase (k + 512) * (starRingEnd ℂ) (phase (l + 512))) ^ 1024 = 1 := by
      rw [← hpow, phase_mul_full, phase_mul_full, map_one, mul_one]
    rw [geom_sum_eq hturn, hround, sub_self, zero_div]

/-- Parseval's identity for real values at the bins. -/
theorem sum_normSq_binSum (z : Nat → ℝ) :
    ∑ n ∈ Finset.range 1024, Complex.normSq (binSum z n) = 1024 * ∑ k ∈ Finset.range 1024, z k ^ 2 := by
  have hsquare : ∀ n, (Complex.normSq (binSum z n) : ℂ) = ∑ k ∈ Finset.range 1024, ∑ l ∈ Finset.range 1024,
      (z k * z l : ℂ) * (phase ((k + 512) * n) * (starRingEnd ℂ) (phase ((l + 512) * n))) := fun n => by
    rw [← Complex.mul_conj, binSum, map_sum, Finset.sum_mul_sum]
    simp only [map_mul, Complex.conj_ofReal, mul_mul_mul_comm]
  have hdiagonal : ∀ k ∈ Finset.range 1024, ∑ l ∈ Finset.range 1024, (z k * z l : ℂ) *
      ∑ n ∈ Finset.range 1024, phase ((k + 512) * n) * (starRingEnd ℂ) (phase ((l + 512) * n)) =
      1024 * (z k : ℂ) ^ 2 := fun k hk => by
    rw [Finset.sum_eq_single_of_mem k hk, sum_phase_mul_conj, if_pos rfl]
    · ring
    · exact Finset.mem_range.mp hk
    · exact Finset.mem_range.mp hk
    · intro l hl hne
      rw [sum_phase_mul_conj (Finset.mem_range.mp hk) (Finset.mem_range.mp hl), if_neg hne.symm, mul_zero]
  have hcomplex : ∑ n ∈ Finset.range 1024, (Complex.normSq (binSum z n) : ℂ) =
      1024 * ∑ k ∈ Finset.range 1024, (z k : ℂ) ^ 2 := by
    simp only [hsquare]
    rw [Finset.sum_comm, Finset.mul_sum, Finset.sum_congr rfl fun k hk => (hdiagonal k hk).symm]
    simp only [Finset.mul_sum]
    exact Finset.sum_congr rfl fun k _ => Finset.sum_comm
  exact_mod_cast hcomplex

/-- The energy of a windowed spectrum is that of the window at the carriers (R177, R178). -/
theorem sum_windowed_sq (fft : BitVec 3) (window : List Word) :
    ∑ k ∈ Finset.range 1024, windowed (spectrum fft) window k ^ 2 =
      (carrierBins.map fun k => ((binary32Value (window.getD k 0) : ℚ) : ℝ) ^ 2).sum := by
  have hsub : carrierBins.toFinset ⊆ Finset.range 1024 := fun k hk =>
    Finset.mem_range.mpr (carrierBins_range (List.mem_toFinset.mp hk)).2
  rw [← List.sum_toFinset _ nodup_carrierBins, ← Finset.sum_subset hsub]
  · refine Finset.sum_congr rfl fun k hk => ?_
    obtain hone | hone := spectrum_eq_one_or fft (List.mem_toFinset.mp hk) <;> simp [windowed, hone]
  · intro k _ hk
    simp [windowed, spectrum_eq_zero fft (mt List.mem_toFinset.mpr hk)]

/-- Settles O59: Parseval's identity, for a spectrum that is +1 or -1 at the carriers and 0 elsewhere. -/
theorem waveformEnergyLaw : Obligations.WaveformEnergyLaw := by
  intro fft window
  have henergy : ∀ n, Complex.normSq (exactComplex (exactA fft window n)) =
      Complex.normSq (binSum (windowed (spectrum fft) window) n) / 384 := fun n => by
    rw [exactA, exactComplex_transform, Complex.normSq_div, Complex.normSq_ofReal, Real.mul_self_sqrt (by norm_num)]
  simp only [henergy]
  rw [← List.sum_toFinset _ List.nodup_range, List.toFinset_range, ← Finset.sum_div, sum_normSq_binSum,
    sum_windowed_sq, mul_div_right_comm]

end Sys2Proof.Machine
end

section
/-! PROOFS about the control commands (42_control.md). Each is one word at the port, so a step runs it on its immediate or
faults with RESERVED_BITS; a read is a fact about what `readReg` and `readTab` find. -/

namespace Sys2Proof.Machine

open Sys2Proof

/-! ## A command of one word -/

section OneWord
variable {s : State} {op : Opcode} {imm : BitVec 24} {rest : List Word}

/-- A command without operand words runs on its immediate alone, unless a must-be-zero bit is set there (30_encoding.md
R84, R86). -/
theorem step_of_oneWord (hop : operandCount op = 0) (pin : s.resetPin = false)
    (hport : s.port = commandWord op imm :: rest) : step s =
      if imm &&& mustBeZero op = 0 then exec (buildInstr op imm []) { s with port := rest }
      else .next (faultCommand op .reservedBits { s with port := rest }) := by
  have hlisted : opcodeOf (opcField (commandWord op imm)) = some op := by simp
  split
  · next himm =>
    refine step_of_decode_instr pin ?_
    rw [hport, decode_of_listed hlisted, imm24Field_commandWord, hop, if_neg (Nat.not_lt_zero _), if_pos himm]
    rfl
  · next himm =>
    rw [step_of_reserved pin hport hlisted (hop ▸ Nat.zero_le _) (by rwa [imm24Field_commandWord]), hop,
      List.drop_zero]

/-- A command with no field in its immediate runs if the immediate is 0 (30_encoding.md R84). -/
theorem step_of_noField (hmask : mustBeZero op = BitVec.allOnes 24) (hop : operandCount op = 0)
    (pin : s.resetPin = false) (hport : s.port = commandWord op imm :: rest) : step s =
      if imm = 0 then exec (buildInstr op imm []) { s with port := rest }
      else .next (faultCommand op .reservedBits { s with port := rest }) := by
  rw [step_of_oneWord hop pin hport, hmask, BitVec.and_allOnes]

end OneWord

/-- A command that names no unit leaves both when it faults (60_exceptions.md R231). -/
theorem faultCommand_of_noUnit {op : Opcode} (hunit : opcodeUnit op = none) (code : FaultCode) (s : State) :
    faultCommand op code s =
      { s with
        log := s.log ++ [.fault none code (opcodeByte op)]
        responses := s.responses ++ [.fault code] } := by
  cases op with
  | nop | rdreg | rdtab => rfl
  | frConfig | frForecast | frWork | frReset | syConfig | syForecast | syWork | syReset => cases hunit

/-! ## NOP and the unit resets -/

/-- Settles O21: NOP has no field in its immediate and names no unit. -/
theorem nopChangesNothing : Obligations.NopChangesNothing := by
  refine ⟨fun s => rfl, fun s imm rest pin hport himm => ?_, fun s rest pin hport => ?_⟩
  · rw [step_of_noField rfl rfl pin hport, if_neg himm, faultCommand_of_noUnit rfl]
    rfl
  · have hnop : s.port = commandWord .nop 0 :: rest := hport
    rw [step_of_noField rfl rfl pin hnop, if_pos rfl]
    rfl

/-- Settles O24: FR_RESET has no field in its immediate and makes no check. -/
theorem frResetRestoresReset : Obligations.FrResetRestoresReset :=
  ⟨fun _ _ _ pin hport => step_of_noField rfl rfl pin hport, fun _ => rfl⟩

/-- Settles O25: SY_RESET has no field in its immediate and makes no check. -/
theorem syResetRestoresReset : Obligations.SyResetRestoresReset :=
  ⟨fun _ _ _ pin hport => step_of_noField rfl rfl pin hport, fun _ => rfl⟩

/-! ## RDREG -/

/-- The must-be-zero bits of RDREG are those above the register number (30_encoding.md R84). -/
theorem and_mustBeZero_rdreg (high : BitVec 16) (reg : Byte) : (high ++ reg) &&& mustBeZero .rdreg = 0 ↔ high = 0 := by
  have hand : (high ++ reg) &&& mustBeZero .rdreg = high ++ (0 : Byte) := by
    rw [show mustBeZero .rdreg = BitVec.allOnes 16 ++ 0#8 by decide, BitVec.and_append, BitVec.and_allOnes,
      BitVec.and_zero]
    rfl
  rw [hand]
  exact BitVec.append_left_inj (s₂ := 0) (0 : Byte)

theorem exec_rdreg_of_read {s : State} {reg : Byte} {v : Word} (read : readReg s reg = some v) :
    exec (.rdreg reg) s = .next (respond (.ok [v]) s) := by
  simp only [exec, execRdreg, read, answerOk]

theorem exec_rdreg_of_reserved {s : State} {reg : Byte} (reserved : readReg s reg = none) :
    exec (.rdreg reg) s = .next (faultCommand .rdreg .badOperand s) := by
  simp only [exec, execRdreg, reserved, answerFault]

/-- LOG_LEN is the number of events, or the largest word (10_state.md R46). -/
theorem logLen_eq (log : List Event) :
    logLen log = if log.length < 2 ^ 32 then BitVec.ofNat 32 log.length else 0xFFFFFFFF := by
  rw [logLen]
  split
  · rw [Nat.min_eq_left (by omega)]
  · rw [Nat.min_eq_right (by omega)]; rfl

/-- The numbers that name no register (10_state.md R46). -/
theorem readReg_of_reserved (s : State) {reg : Byte}
    (h : (0x0A < reg.toNat ∧ reg.toNat < 0x10) ∨ (0x19 < reg.toNat ∧ reg.toNat ≠ 0x20)) : readReg s reg = none := by
  unfold readReg
  split
  case h_23 => rfl
  all_goals omega

/-- Settles O22: the immediate is split at its byte 0; each number listed reads its register, and no reserved one does. -/
theorem rdregReadsRegister : Obligations.RdregReadsRegister := by
  refine ⟨fun s high reg rest pin hport => ?_, fun s reg v hmem => exec_rdreg_of_read ?_, fun s reg hreserved => ?_⟩
  · have hbuild : buildInstr .rdreg (high ++ reg) [] = .rdreg reg :=
      congrArg Instr.rdreg BitVec.extractLsb'_append_eq_right
    simp only [step_of_oneWord rfl pin hport, and_mustBeZero_rdreg, hbuild,
      faultCommand_of_noUnit (show opcodeUnit .rdreg = none from rfl)]
    rfl
  · refine (?_ : ∀ p ∈ _, readReg s p.1 = some p.2) (reg, v) hmem
    simp only [List.forall_mem_cons]
    have hlow : s.fr.inPos.extractLsb' 0 32 = s.fr.inPos.truncate 32 :=
      (BitVec.setWidth_eq_extractLsb' (by decide)).symm
    have hhigh : s.fr.inPos.extractLsb' 32 32 = (s.fr.inPos >>> 32).truncate 32 :=
      BitVec.setWidth_ushiftRight_eq_extractLsb.symm
    exact ⟨rfl, rfl, rfl, rfl, rfl, rfl, rfl, rfl, rfl, congrArg some hlow, congrArg some hhigh, rfl, rfl, rfl, rfl, rfl,
      rfl, rfl, rfl, rfl, rfl, congrArg some (logLen_eq s.log), List.forall_mem_nil _⟩
  · rw [exec_rdreg_of_reserved (readReg_of_reserved s hreserved), faultCommand_of_noUnit rfl]
    rfl

/-! ## RDTAB -/

theorem exec_rdtab_of_read {s : State} {tab : Byte} {idx : BitVec 16} {ws : List Word}
    (read : readTab s tab idx = some ws) : exec (.rdtab tab idx) s = .next (respond (.ok ws) s) := by
  simp only [exec, execRdtab, read, answerOk]

theorem exec_rdtab_of_outside {s : State} {tab : Byte} {idx : BitVec 16} (outside : readTab s tab idx = none) :
    exec (.rdtab tab idx) s = .next (faultCommand .rdtab .badOperand s) := by
  simp only [exec, execRdtab, outside, answerFault]

/-- An entry of the checksum table is the entry of its index (40_framer.md R137). -/
theorem getD_crc8Tab {idx : BitVec 16} (h : idx.toNat ≤ 255) : crc8Tab.getD idx.toNat 0 = crc8Entry (idx.truncate 8) := by
  simp [crc8Tab, List.getD_eq_getElem?_getD, List.getElem?_range (show idx.toNat < 256 by omega)]

/-- An entry that is there does not depend on the default. -/
theorem getD_of_getElem? {α : Type} {xs : List α} {i : Nat} {x : α} (default : α) (hx : xs[i]? = some x) :
    xs.getD i default = x := by
  rw [List.getD_eq_getElem?_getD, hx, Option.getD_some]

section Tables
variable {s : State} {idx : BitVec 16}

theorem readTab_crc8 (h : idx.toNat ≤ 255) : readTab s 0 idx = some [(crc8Entry (idx.truncate 8)).zeroExtend 32] := by
  rw [← getD_crc8Tab h]
  exact if_neg h.not_gt

theorem readTab_p1A (h : idx.toNat ≤ 1023) {z : Sample} (hz : s.sy.p1A[idx.toNat]? = some z) :
    readTab s 1 idx = some [z.re, z.im] := by
  rw [← getD_of_getElem? ⟨0, 0⟩ hz]
  exact if_neg h.not_gt

theorem readTab_p1Sh (h : idx.toNat ≤ 1023) {z : Sample} (hz : s.sy.p1Sh[idx.toNat]? = some z) :
    readTab s 2 idx = some [z.re, z.im] := by
  rw [← getD_of_getElem? ⟨0, 0⟩ hz]
  exact if_neg h.not_gt

theorem readTab_win (h : idx.toNat ≤ 1023) {x : Word} (hx : s.sy.win[idx.toNat]? = some x) :
    readTab s 3 idx = some [x] := by
  rw [← getD_of_getElem? 0 hx]
  exact if_neg h.not_gt

/-- An index past the end of its table, or a number of no table (42_control.md R211). -/
theorem readTab_of_outside {tab : Byte} (h : (tab.toNat = 0 ∧ 255 < idx.toNat) ∨
    (1 ≤ tab.toNat ∧ tab.toNat ≤ 3 ∧ 1023 < idx.toNat) ∨ 3 < tab.toNat) : readTab s tab idx = none := by
  unfold readTab
  split
  case h_5 => rfl
  all_goals exact if_pos (by omega)

end Tables

/-- Settles O23: every immediate of RDTAB is a table and an index, and each table is read inside its range alone. -/
theorem rdtabReadsEntry : Obligations.RdtabReadsEntry := by
  refine ⟨fun s tab idx rest pin hport => ?_, fun s idx z x => ⟨fun h => exec_rdtab_of_read (readTab_crc8 h),
    fun h hz => exec_rdtab_of_read (readTab_p1A h hz), fun h hz => exec_rdtab_of_read (readTab_p1Sh h hz),
    fun h hx => exec_rdtab_of_read (readTab_win h hx)⟩, fun s tab idx houtside => ?_⟩
  · exact step_of_decode_instr pin (hport ▸ decodeOfEncode (.rdtab tab idx) rest rfl)
  · have hrange := houtside.imp_left (And.imp_left (congrArg BitVec.toNat))
    rw [exec_rdtab_of_outside (readTab_of_outside hrange), faultCommand_of_noUnit rfl]
    rfl

end Sys2Proof.Machine
end

section
/-! PROOFS of the exception statements (60_exceptions.md R231, R232). A command that answers a fault has led to the one
state `faultCommand`, whose fields say the whole fault record. A FAULTED unit passes no check that comes before a write to
its registers, so only its reset and further faults write its status, and a further fault leaves the first code. -/

namespace Sys2Proof.Machine

open Sys2Proof

/-! ## What a faulting command leaves unchanged -/

/-- A completing command responds Ok, so the answer Fault(c) tells that the command took the fault c. -/
theorem Executes.eq_faultCommand {i : Instr} {s t : State} {c : FaultCode} (h : Executes s i t)
    (hfault : t.responses = s.responses ++ [.fault c]) : t = faultCommand i.opcode c s := by
  cases h with
  | fault i code =>
    have hcode : code = c := by simpa using hfault
    rw [hcode]
  | nop | rdreg | rdtab | frConfig | frForecast | frWork | frReset | syConfig | syForecast | syWork | syReset =>
    simp at hfault

section Fault
variable (s : State) (op : Opcode) (c : FaultCode)

/-- A fault writes no register of unit FR but its status (60_exceptions.md R231). -/
theorem faultCommand_fr_eq_with_status :
    (faultCommand op c s).fr = { s.fr with status := (faultCommand op c s).fr.status } := by
  rw [faultCommand_fr]
  split <;> rfl

/-- A fault writes no register and no table of unit SY but its status (60_exceptions.md R231). -/
theorem faultCommand_sy_eq_with_status :
    (faultCommand op c s).sy = { s.sy with status := (faultCommand op c s).sy.status } := by
  rw [faultCommand_sy]
  split <;> rfl

end Fault

/-- The fault record of a status, and nothing else, is what a fault writes (60_exceptions.md R231). -/
theorem recordFault_spec (c : FaultCode) (status : Word) : isFaulted (recordFault c status) = true ∧
    faultCodeField (recordFault c status) = (if isFaulted status then faultCodeField status else faultCodeByte c) ∧
    recordFault c status &&& 0xFFFF00FD = status &&& 0xFFFF00FD :=
  ⟨isFaulted_recordFault c status, faultCodeField_recordFault c status, recordFault_and c status⟩

/-- Settles O12: the next state is `faultCommand`, which is taken apart field by field. -/
theorem faultChangesOnlyTheRecord : Obligations.FaultChangesOnlyTheRecord := by
  refine ⟨rfl, fun i s t c h hfault => ?_⟩
  obtain rfl := (executes_of_exec h).eq_faultCommand hfault
  refine ⟨faultCommand_log s _ c, faultCommand_fr_eq_with_status s _ c, faultCommand_sy_eq_with_status s _ c,
    fun hother => ?_, fun hother => ?_, fun hunit => ?_, fun hunit => ?_, buffersUntouched_faultCommand s c,
    fun hop => ?_, fun hop => ?_⟩
  · rw [faultCommand_fr, if_neg hother]
  · rw [faultCommand_sy, if_neg hother]
  · rw [faultCommand_fr, if_pos hunit]
    exact recordFault_spec c s.fr.status
  · rw [faultCommand_sy, if_pos hunit]
    exact recordFault_spec c s.sy.status
  · rw [hop]
    exact ⟨_, frHandedBack_faultCommand s c⟩
  · rw [hop]
    exact ⟨_, syHandedBack_faultCommand s c⟩

/-! ## FAULTED until the unit's reset -/

/-- From a FAULTED status on, FAULTED and the first FAULTCODE are still there (60_exceptions.md R231, R232). -/
def FaultStays (status status' : Word) : Prop :=
  isFaulted status' = true ∧ faultCodeField status' = faultCodeField status

section Faulted
variable {status : Word} (hfaulted : isFaulted status = true)
include hfaulted

theorem faultStays_self : FaultStays status status := ⟨hfaulted, rfl⟩

/-- A further fault leaves the code of the first. -/
theorem faultStays_recordFault (c : FaultCode) : FaultStays status (recordFault c status) :=
  ⟨isFaulted_recordFault c status, by rw [faultCodeField_recordFault, if_pos hfaulted]⟩

theorem not_ready_of_faulted : ¬Ready status := fun ⟨_, hclear⟩ => by simp [hfaulted] at hclear

theorem not_unconfigured_of_faulted : ¬Unconfigured status := fun ⟨_, hclear⟩ => by simp [hfaulted] at hclear

end Faulted

section Executes
variable {i : Instr} {s t : State}

/-- FR_CONFIG and FR_WORK do not complete on a FAULTED unit FR, so a command other than FR_RESET leaves the unit's fault. -/
theorem Executes.fr_faultStays (h : Executes s i t) (hreset : i ≠ .frReset) (hfaulted : isFaulted s.fr.status = true) :
    FaultStays s.fr.status t.fr.status := by
  cases h with
  | fault i code =>
    rw [faultCommand_fr]
    split
    · exact faultStays_recordFault hfaulted code
    · exact faultStays_self hfaulted
  | frConfig passed =>
    obtain ⟨hunconfigured, -⟩ := frConfigCheck_eq_none.mp passed
    exact absurd hunconfigured (not_unconfigured_of_faulted hfaulted)
  | frWork passed => exact absurd (ready_of_frWorkCheck passed) (not_ready_of_faulted hfaulted)
  | frReset => exact absurd rfl hreset
  | nop | rdreg | rdtab | frForecast | syConfig | syForecast | syWork | syReset => exact faultStays_self hfaulted

/-- SY_CONFIG does not complete on a FAULTED unit SY, so a command other than SY_RESET leaves the unit's fault. -/
theorem Executes.sy_faultStays (h : Executes s i t) (hreset : i ≠ .syReset) (hfaulted : isFaulted s.sy.status = true) :
    FaultStays s.sy.status t.sy.status := by
  cases h with
  | fault i code =>
    rw [faultCommand_sy]
    split
    · exact faultStays_recordFault hfaulted code
    · exact faultStays_self hfaulted
  | syConfig passed =>
    obtain ⟨hunconfigured, -⟩ := syConfigCheck_eq_none.mp passed
    exact absurd hunconfigured (not_unconfigured_of_faulted hfaulted)
  | syReset => exact absurd rfl hreset
  | nop | rdreg | rdtab | frConfig | frForecast | frWork | frReset | syForecast | syWork => exact faultStays_self hfaulted

end Executes

/-- Settles O13, over the ways in which a command leads to a next state. -/
theorem faultedUntilUnitReset : Obligations.FaultedUntilUnitReset := fun _ _ _ h =>
  ⟨(executes_of_exec h).fr_faultStays, (executes_of_exec h).sy_faultStays⟩

end Sys2Proof.Machine
end

section
/-! PROOFS about the Framer's forecast against its need (70_reset_and_hazards.md R270 and R272). A run of frames takes what
its payload slots take back to back, and every in-band field takes 13 slots out of the run. -/

namespace Sys2Proof.Machine

open Sys2Proof

/-! ## The slots of a run of frames -/

/-- The need of slots is that of the first ones, and that of the others from the counter these leave (R123). -/
theorem needSlots_add (hem : Bool) (a b c : Nat) : needSlots hem (a + b) c =
    ((needSlots hem a c).1 + (needSlots hem b (needSlots hem a c).2).1,
      (needSlots hem b (needSlots hem a c).2).2) := by
  induction a generalizing c with
  | zero => simp [needSlots]
  | succ a ih => rw [Nat.succ_add]; simp only [needSlots, ih, Nat.add_assoc]

/-- How many of the next k frames carry the in-band field, from FEC block f on (R127, R135). -/
def inbandFrames (u : FrUnit) (k f : Nat) : Nat :=
  ((List.range k).filter fun j => frInband u.cfg && (f + j) % u.fecBlocks.toNat == 0).length

section Inband
variable {u : FrUnit} {f : Nat}

theorem inbandFrames_of_noInband (hin : frInband u.cfg = false) (k : Nat) : inbandFrames u k f = 0 := by
  simp [inbandFrames, hin]

/-- The first frame carries the field in FEC block 0; the others follow from the next block (R127, R135). -/
theorem inbandFrames_succ (hf : frInband u.cfg = true → f < u.fecBlocks.toNat) (k : Nat) :
    inbandFrames u (k + 1) f = (if frInband u.cfg = true ∧ f = 0 then 1 else 0) +
      inbandFrames u k (if frInband u.cfg then (f + 1) % u.fecBlocks.toNat else f) := by
  cases hin : frInband u.cfg with
  | false => simp [inbandFrames_of_noInband hin]
  | true =>
    have hnext : ∀ j, ((f + 1) % u.fecBlocks.toNat + j) % u.fecBlocks.toNat = (f + (j + 1)) % u.fecBlocks.toNat :=
      fun j => by rw [Nat.mod_add_mod, Nat.add_assoc, Nat.add_comm 1]
    simp only [inbandFrames, hin, if_true, true_and, Bool.true_and, List.range_succ_eq_map, List.filter_cons,
      List.filter_map, Function.comp_def, Nat.succ_eq_add_one, hnext, Nat.add_zero, Nat.mod_eq_of_lt (hf hin),
      beq_iff_eq]
    split
    · rw [List.length_cons, List.length_map, Nat.add_comm]
    · rw [List.length_map, Nat.zero_add]

/-- A run of frames takes what its slots take, 13 fewer for every in-band field (R123, R127, R131). -/
theorem exists_slots_needFrames (hkbch : 184 ≤ u.kbch.toNat) (hf : frInband u.cfg = true → f < u.fecBlocks.toNat)
    (k c : Nat) : ∃ slots, slots + 13 * inbandFrames u k f = k * ((u.kbch.toNat - 80) / 8) ∧
      needFrames u k c f = (needSlots (frHem u.cfg) slots c).1 := by
  induction k generalizing c f with
  | zero => exact ⟨0, by simp [inbandFrames], rfl⟩
  | succ k ih =>
    let first := (u.kbch.toNat - headerBits - (if frInband u.cfg = true ∧ f = 0 then inbandBits else 0)) / 8
    have hf' : frInband u.cfg = true →
        (if frInband u.cfg then (f + 1) % u.fecBlocks.toNat else f) < u.fecBlocks.toNat := fun hin => by
      rw [if_pos hin]
      exact Nat.mod_lt _ (Nat.zero_lt_of_lt (hf hin))
    have hfirst : first + 13 * (if frInband u.cfg = true ∧ f = 0 then 1 else 0) = (u.kbch.toNat - 80) / 8 := by
      simp only [first, headerBits, inbandBits]
      split <;> omega
    obtain ⟨later, hlater, hneed⟩ := ih hf' (needSlots (frHem u.cfg) first c).2
    refine ⟨first + later, ?_, ?_⟩
    · rw [inbandFrames_succ hf, Nat.succ_mul k]
      omega
    · rw [needSlots_add, needFrames, hneed]

end Inband

/-! ## Need and forecast for whole frames -/

section Frames
variable {u : FrUnit} {k : Nat}

theorem need_mul_kbch (hpos : 0 < u.kbch.toNat) (k : Nat) : need u (k * u.kbch.toNat) = u.framesNeed k := by
  rw [need_eq_framesNeed, Nat.mul_div_cancel k hpos]

/-- The forecast for k frames: their payload bytes without in-band field, and ten more for every header but the first,
since the forecast takes the 80 header bits off once only (R122). -/
theorem frForecast_mul {kbch : Nat} (hem : Bool) (hmin : 80 < kbch) (hmod : kbch % 8 = 0) (hk : 1 ≤ k) :
    frForecast hem (k * kbch) = k * ((kbch - 80) / 8) + 10 * (k - 1) + (if hem then 188 else 0) := by
  have hbits : k * kbch = 8 * (k * ((kbch - 80) / 8)) + 80 * k := by
    obtain ⟨q, hq⟩ : ∃ q, kbch = 8 * q + 80 := ⟨(kbch - 80) / 8, by omega⟩
    rw [hq, Nat.add_sub_cancel, Nat.mul_div_cancel_left q (by decide)]
    ring
  have hsome : 0 < k * ((kbch - 80) / 8) := Nat.mul_pos hk (by omega)
  rw [frForecast_eq, hbits, if_neg (by omega), if_neg (by omega)]
  omega

/-- Settles O42: in normal mode every slot takes one byte, so the surplus is what the forecast does not take off. -/
theorem normalModeForecastSurplus : Obligations.NormalModeForecastSurplus := by
  intro u k hlegal hready hnm hk
  have hnm : frHem u.cfg = false := hnm
  have hworking : u.Working := ⟨hlegal, hready.1⟩
  obtain ⟨-, -, hblock⟩ := hlegal.configured hready.1
  obtain ⟨hmin, -, hmod⟩ := hworking.kbch_sizes
  obtain ⟨slots, hslots, hneed⟩ := exists_slots_needFrames (by omega) hblock k u.count.toNat
  rw [hnm, needSlots_nm slots hlegal.countRange] at hneed
  rw [frForecast_mul false (by omega) hmod hk, need_mul_kbch (by omega), FrUnit.framesNeed, hneed, ← hslots]
  simp only [inbandFrames, frInband, Bool.false_eq_true, if_false]
  omega

/-! ## High-efficiency mode -/

/-- One frame drops fewer sync bytes than the packet that the forecast declares for them (R141, R272). -/
theorem FrUnit.Working.need_kbch_le_forecast {u : FrUnit} (h : u.Working) (hhem : frHem u.cfg = true) :
    need u u.kbch.toNat ≤ frForecast true u.kbch.toNat := by
  obtain ⟨hmin, hmax, hmod⟩ := h.kbch_sizes
  obtain ⟨hslots, hsum⟩ := h.frame_sizes
  obtain ⟨z, hneed, hz⟩ := needSlots_hem (frameSlots u) h.1.countRange
  have hforecast := frForecast_mul true (show 80 < u.kbch.toNat by omega) hmod (Nat.le_refl 1)
  rw [Nat.one_mul, if_pos rfl] at hforecast
  have hcount : u.count.toNat < 188 := h.1.countRange
  rw [h.need_kbch, FrUnit.frameNeed, hhem, hneed, hforecast]
  dsimp only
  omega

/-- From counter 0, where a sync byte stands, one byte is dropped for every 187 slots begun (R123, R141). -/
theorem needSlots_hem_of_aligned (s : Nat) :
    needSlots true s 0 = (s + (s + 186) / 187, (s + (s + 186) / 187) % 188) := by
  induction s with
  | zero => rfl
  | succ s ih =>
    rw [needSlots_add, ih]
    simp only [needSlots, packetSize, and_true]
    split
    · next hsync =>
      have hdropped : (s + 1 + 186) / 187 = (s + 186) / 187 + 1 := by omega
      rw [hdropped]
      exact Prod.ext (by dsimp only; omega) (by dsimp only; omega)
    · next hdata =>
      have hkept : (s + 1 + 186) / 187 = (s + 186) / 187 := by omega
      rw [hkept]
      exact Prod.ext (by dsimp only; omega) (by dsimp only; omega)

/-- From counter 0 without in-band field, one byte is dropped for every 187 slots begun (R123, R141). -/
theorem need_of_hem (hkbch : 184 ≤ u.kbch.toNat) (hcount : u.count = 0) (hin : frInband u.cfg = false)
    (hhem : frHem u.cfg = true) (k : Nat) : need u (k * u.kbch.toNat) =
      k * ((u.kbch.toNat - 80) / 8) + (k * ((u.kbch.toNat - 80) / 8) + 186) / 187 := by
  obtain ⟨slots, hslots, hneed⟩ := exists_slots_needFrames (f := u.fecBlock.toNat) hkbch (by simp [hin]) k 0
  rw [inbandFrames_of_noInband hin, Nat.mul_zero, Nat.add_zero] at hslots
  have hzero : u.count.toNat = 0 := congrArg BitVec.toNat hcount
  rw [need_mul_kbch (by omega), FrUnit.framesNeed, hzero, hneed, hhem, ← hslots, needSlots_hem_of_aligned]

/-- The k frames that the forecast covers are those that begin at most `10 k + 178` groups of 187 slots (R272). -/
theorem need_le_forecast_of_hem (hkbch : 184 ≤ u.kbch.toNat) (hmod : u.kbch.toNat % 8 = 0) (hcount : u.count = 0)
    (hin : frInband u.cfg = false) (hhem : frHem u.cfg = true)
    (hgroups : k = 0 ∨ (k * ((u.kbch.toNat - 80) / 8) + 186) / 187 ≤ 10 * k + 178) :
    need u (k * u.kbch.toNat) ≤ frForecast true (k * u.kbch.toNat) := by
  obtain rfl | hk := Nat.eq_zero_or_pos k
  · rw [Nat.zero_mul]; exact need_le u 0
  · rw [need_of_hem hkbch hcount hin hhem, frForecast_mul true (by omega) hmod hk, if_pos rfl]
    omega

end Frames

/-- The rows of R272: kbch, the first k whose need exceeds the forecast, and the two there. -/
def forecastExceededRows : List (Nat × Nat × Nat × Nat) :=
  [(32208, 16, 64600, 64594), (38688, 12, 58222, 58210), (43040, 10, 53988, 53978), (48408, 8, 48587, 48586),
    (51648, 8, 51844, 51826), (53840, 7, 47292, 47288), (25728, 25, 80579, 80578)]

/-- The kbch values whose need stays within the forecast for k up to 39 (R272). -/
def forecastKeptSizes : List Nat := [21408, 7032, 9552, 10632, 11712, 12432, 13152, 5232, 6312]

/-- The arithmetic of the rows of R272. -/
theorem forecastExceededRows_spec : ∀ row ∈ forecastExceededRows, 184 ≤ row.1 ∧ row.1 % 8 = 0 ∧ 1 ≤ row.2.1 ∧
    row.2.1 * ((row.1 - 80) / 8) + (row.2.1 * ((row.1 - 80) / 8) + 186) / 187 = row.2.2.1 ∧
    row.2.1 * ((row.1 - 80) / 8) + 10 * (row.2.1 - 1) + 188 = row.2.2.2 ∧
    ∀ k < row.2.1, k = 0 ∨ (k * ((row.1 - 80) / 8) + 186) / 187 ≤ 10 * k + 178 := by
  decide

/-- The arithmetic of the sizes without a row in R272. -/
theorem forecastKeptSizes_spec : ∀ kbch ∈ forecastKeptSizes, 184 ≤ kbch ∧ kbch % 8 = 0 ∧
    ∀ k ≤ 39, k = 0 ∨ (k * ((kbch - 80) / 8) + 186) / 187 ≤ 10 * k + 178 := by
  decide

/-- Settles O43: one frame from any counter, and the table from the closed forms of need and forecast. -/
theorem highEfficiencyForecast : Obligations.HighEfficiencyForecast := by
  refine ⟨fun u hlegal hready hhem => FrUnit.Working.need_kbch_le_forecast ⟨hlegal, hready.1⟩ hhem,
    fun u k hcount hin hhem => ⟨fun row hrow hkbch => ?_, fun hmem hk => ?_⟩⟩
  · obtain ⟨hmin, hmod, hpos, hneed, hforecast, hwithin⟩ := forecastExceededRows_spec row hrow
    rw [← hkbch] at hmin hmod hneed hforecast hwithin ⊢
    exact ⟨(need_of_hem hmin hcount hin hhem _).trans hneed,
      (frForecast_mul true (by omega) hmod hpos).trans hforecast,
      fun hk => need_le_forecast_of_hem hmin hmod hcount hin hhem (hwithin k hk)⟩
  · obtain ⟨hmin, hmod, hwithin⟩ := forecastKeptSizes_spec _ hmem
    exact need_le_forecast_of_hem hmin hmod hcount hin hhem (hwithin k hk)

end Sys2Proof.Machine
end

section
/-! PROOFS about waiting for words and about power-on reset (70_reset_and_hazards.md R260, R262 and R264): when a step
stops, the values after reset, and what becomes of the command that power-on reset abandons. -/

namespace Sys2Proof

/-- The words that hold no command yet: none, or a listed opcode with too few operand words (R264). -/
theorem decode_eq_wait_iff {words : List Word} : decode words = .wait ↔
    words = [] ∨ ∃ w ws op, words = w :: ws ∧ opcodeOf (opcField w) = some op ∧ ws.length < operandCount op := by
  constructor
  · intro h
    cases words with
    | nil => exact .inl rfl
    | cons w ws =>
      cases hop : opcodeOf (opcField w) with
      | none => rw [decode_of_unlisted hop] at h; cases h
      | some op =>
        rw [decode_of_listed hop] at h
        split_ifs at h with hfew
        exact .inr ⟨w, ws, op, rfl, hop, hfew⟩
  · rintro (rfl | ⟨w, ws, op, rfl, hop, hfew⟩)
    · rfl
    · rw [decode_of_listed hop, if_pos hfew]

namespace Machine

/-! ## Waiting -/

/-- A step stops exactly if the port holds no command yet: every command answers a next state (R264). -/
theorem step_eq_awaitingWords_iff {s : State} (pin : s.resetPin = false) :
    step s = .fault .awaitingWords ↔ decode s.port = .wait := by
  cases fetched : decode s.port with
  | wait => simp [step, pin, fetched]
  | illegal opc rest => simp [step, pin, fetched]
  | reserved op rest => simp [step, pin, fetched]
  | instr i rest =>
    obtain ⟨t, hexec, -⟩ := exists_exec_eq_next i { s with port := rest }
    simp [step_of_decode_instr pin fetched, hexec]

/-- Settles O8: the step stops where decoding waits, and decoding waits for missing words. -/
theorem stepWaitsForWords : Obligations.StepWaitsForWords := fun _ pin =>
  (step_eq_awaitingWords_iff pin).trans decode_eq_wait_iff

/-! ## The state after reset -/

/-- Settles O17: the registers by their definition, the tables as lists of equal elements, and CRC8_TAB by its entries. -/
theorem resetValues : Obligations.ResetValues := by
  have hcrc : ∀ i : Byte, readTab State.reset 0 (i.zeroExtend 16) = some [(crc8Entry i).zeroExtend 32] := by
    intro i
    have hidx : (i.zeroExtend 16).toNat ≤ 255 := by
      rw [BitVec.toNat_setWidth, Nat.mod_eq_of_lt (by omega)]; omega
    rw [readTab_crc8 hidx, show (i.zeroExtend 16).truncate 8 = i from BitVec.setWidth_setWidth_of_le i (by decide)]
  exact ⟨rfl, rfl, rfl, rfl, rfl, rfl, rfl, rfl, rfl, rfl, rfl, rfl, rfl, rfl, rfl, rfl, rfl, rfl, rfl, rfl,
    length_reset_win, fun _ => List.eq_of_mem_replicate, length_reset_p1A, fun _ => List.eq_of_mem_replicate,
    length_reset_p1Sh, fun _ => List.eq_of_mem_replicate, rfl, rfl, rfl, hcrc⟩

/-- Settles O19: both units are legal after reset, and the log is empty. -/
theorem legalAtReset : Obligations.LegalAtReset := ⟨FrUnit.legal_reset, SyUnit.legal_reset, List.forall_mem_nil _⟩

/-! ## The buffers of an abandoned command -/

section Abandon
variable (s : State)

theorem buffersUntouched_abandonBuffers {op : Opcode} (emits : Nat) (hfr : op ≠ .frWork) (hsy : op ≠ .syWork) :
    BuffersUntouched s (abandonBuffers op emits s) := by
  rw [abandonBuffers_of_ne s emits hfr hsy]
  exact ⟨rfl, rfl, rfl, rfl, rfl⟩

/-- An element past those written that the host leaves alone is unchanged (R262). -/
theorem getElem?_abandonedOutput_unchanged {α : Type} {free : Nat → α} {written j : Nat} {b : Buffers α}
    (hroom : written ≤ b.output.length) (hj : written ≤ j) (hhost : j ∉ b.hostWrites) :
    (abandonedOutput free written b)[j]? = b.output[j]? := by
  simp [getElem?_abandonedOutput hroom, Nat.not_lt.mpr hj, hhost]

/-- An abandoned FR_WORK hands its buffers back, unchanged behind what it had written but where the host wrote (R262). -/
theorem frHandedBack_abandonBuffers {emits : Nat} (hroom : emits ≤ (handedFr s).output.length) :
    ∃ out, FrHandedBack s (abandonBuffers .frWork emits s) out ∧
      ∀ j, writtenCount emits s ≤ j → j ∉ (handedFr s).hostWrites → out[j]? = (handedFr s).output[j]? :=
  have hwritten := (writtenCount_le s emits).trans hroom
  ⟨_, ⟨length_abandonedOutput hwritten, rfl, rfl, rfl, rfl, rfl⟩,
    fun _ => getElem?_abandonedOutput_unchanged hwritten⟩

/-- An abandoned SY_WORK hands its buffers back, unchanged behind what it had written but where the host wrote (R262). -/
theorem syHandedBack_abandonBuffers {emits : Nat} (hroom : emits ≤ (handedSy s).output.length) :
    ∃ out, SyHandedBack s (abandonBuffers .syWork emits s) out ∧
      ∀ j, writtenCount emits s ≤ j → j ∉ (handedSy s).hostWrites → out[j]? = (handedSy s).output[j]? :=
  have hwritten := (writtenCount_le s emits).trans hroom
  ⟨_, ⟨length_abandonedOutput hwritten, rfl, rfl, rfl, rfl, rfl⟩,
    fun _ => getElem?_abandonedOutput_unchanged hwritten⟩

end Abandon

/-! ## What the abandoned command would have emitted -/

section Emit
variable {s : State} {n : Word} {c : FaultCode}

theorem emitCount_le_frWork : emitCount (.frWork n) s ≤ n.toNat := by
  rw [emitCount]; split <;> simp

theorem emitCount_le_syWork : emitCount (.syWork n) s ≤ n.toNat := by
  rw [emitCount]; split <;> simp

/-- A FR_WORK that faults has failed a check and emits nothing (40_framer.md R124, R126). -/
theorem emitCount_frWork_of_fault (h : exec (.frWork n) s = .next (faultCommand .frWork c s)) :
    emitCount (.frWork n) s = 0 := by
  cases check : frWorkCheck n.toNat (handedFr s) s.fr with
  | some code => simp [emitCount, check]
  | none =>
    have hresponses := congrArg State.responses (Host.Outcome.next.inj ((exec_frWork_of_passed check).symm.trans h))
    simp [frWorked] at hresponses

/-- A SY_WORK that faults has failed a check and emits nothing (41_synth.md R183). -/
theorem emitCount_syWork_of_fault (h : exec (.syWork n) s = .next (faultCommand .syWork c s)) :
    emitCount (.syWork n) s = 0 := by
  cases check : syWorkCheck n.toNat (handedSy s) s.sy with
  | some code => simp [emitCount, check]
  | none =>
    have hresponses := congrArg State.responses (Host.Outcome.next.inj ((exec_syWork_of_passed check).symm.trans h))
    simp at hresponses

end Emit

/-! ## Power-on reset -/

theorem step_of_resetPin {s : State} (pin : s.resetPin = true) : step s = .next (powerOnReset s) := if_pos pin

section PowerOnReset
variable {s : State}

/-! What is abandoned, by what the port holds (R262). -/

variable {rest : List Word}

theorem abandonCommand_of_wait (fetched : decode s.port = .wait) : abandonCommand s = { s with port := [] } := by
  simp only [abandonCommand, fetched]

theorem abandonCommand_of_illegal {opc : Byte} (fetched : decode s.port = .illegal opc rest) :
    abandonCommand s = { s with port := rest } := by
  simp only [abandonCommand, fetched]

theorem abandonCommand_of_reserved {op : Opcode} (fetched : decode s.port = .reserved op rest) :
    abandonCommand s = abandonBuffers op 0 { s with port := rest } := by
  simp only [abandonCommand, fetched]

theorem abandonCommand_of_instr {i : Instr} (fetched : decode s.port = .instr i rest) :
    abandonCommand s = abandonBuffers i.opcode (emitCount i s) { s with port := rest } := by
  simp only [abandonCommand, fetched]

/-! Power-on reset does to the port and to the buffers what abandoning the command at the port does (R262). -/

theorem powerOnReset_port : (powerOnReset s).port = (abandonCommand s).port := rfl

theorem BuffersUntouched.powerOnReset (h : BuffersUntouched s (abandonCommand s)) :
    BuffersUntouched s (powerOnReset s) := { h with }

theorem FrHandedBack.powerOnReset {out : List Byte} (h : FrHandedBack s (abandonCommand s) out) :
    FrHandedBack s (powerOnReset s) out := { h with }

theorem SyHandedBack.powerOnReset {out : List Sample} (h : SyHandedBack s (abandonCommand s) out) :
    SyHandedBack s (powerOnReset s) out := { h with }

/-- Words that are no command are taken from the port, and nothing else is done (R262). -/
theorem powerOnReset_of_noCommand (habandon : abandonCommand s = { s with port := rest }) :
    (powerOnReset s).port = rest ∧ BuffersUntouched s (powerOnReset s) :=
  ⟨powerOnReset_port.trans (congrArg State.port habandon), .powerOnReset (habandon ▸ ⟨rfl, rfl, rfl, rfl, rfl⟩)⟩

variable {op : Opcode} {emits : Nat}

/-- A command's words are taken from the port; without buffers nothing else is done (R262). -/
theorem powerOnReset_of_abandonBuffers (habandon : abandonCommand s = abandonBuffers op emits { s with port := rest }) :
    (powerOnReset s).port = rest ∧ (op ≠ .frWork → op ≠ .syWork → BuffersUntouched s (powerOnReset s)) := by
  refine ⟨?_, fun hfr hsy => .powerOnReset ?_⟩
  · rw [powerOnReset_port, habandon, abandonBuffers_port]
  · rw [habandon]
    exact .of_withPort (buffersUntouched_abandonBuffers _ emits hfr hsy)

/-- An abandoned FR_WORK has its buffers handed back (R262). -/
theorem frHandedBack_powerOnReset
    (habandon : abandonCommand s = abandonBuffers .frWork emits { s with port := rest })
    (hroom : emits ≤ (handedFr s).output.length) : ∃ out, FrHandedBack s (powerOnReset s) out ∧
      ∀ j, writtenCount emits s ≤ j → j ∉ (handedFr s).hostWrites → out[j]? = (handedFr s).output[j]? := by
  obtain ⟨out, hback, hunchanged⟩ := frHandedBack_abandonBuffers { s with port := rest } hroom
  exact ⟨out, .powerOnReset (habandon ▸ hback.of_withPort), hunchanged⟩

/-- An abandoned SY_WORK has its buffers handed back (R262). -/
theorem syHandedBack_powerOnReset
    (habandon : abandonCommand s = abandonBuffers .syWork emits { s with port := rest })
    (hroom : emits ≤ (handedSy s).output.length) : ∃ out, SyHandedBack s (powerOnReset s) out ∧
      ∀ j, writtenCount emits s ≤ j → j ∉ (handedSy s).hostWrites → out[j]? = (handedSy s).output[j]? := by
  obtain ⟨out, hback, hunchanged⟩ := syHandedBack_abandonBuffers { s with port := rest } hroom
  exact ⟨out, .powerOnReset (habandon ▸ hback.of_withPort), hunchanged⟩

end PowerOnReset

/-- Settles O18, by what the port holds: the units, the log and the responses do not depend on it, the port and the
buffers are those that abandoning leaves. -/
theorem powerOnResetAbandonsCommand : Obligations.PowerOnResetAbandonsCommand := by
  intro s pin
  have hnone : ∀ j, writtenCount 0 s ≤ j := fun j => (writtenCount_zero s).trans_le (Nat.zero_le j)
  refine ⟨powerOnReset s, step_of_resetPin pin, rfl, rfl, rfl, powerOnReset_responses s, rfl,
    fun fetched => powerOnReset_of_noCommand (abandonCommand_of_wait fetched),
    fun opc rest fetched => powerOnReset_of_noCommand (abandonCommand_of_illegal fetched),
    fun op rest fetched => ?_, fun i rest fetched => ?_⟩
  · have habandon := abandonCommand_of_reserved fetched
    obtain ⟨hport, huntouched⟩ := powerOnReset_of_abandonBuffers habandon
    refine ⟨hport, huntouched, ?_, ?_⟩
    · rintro rfl
      obtain ⟨out, hback, hunchanged⟩ := frHandedBack_powerOnReset habandon (Nat.zero_le _)
      exact ⟨out, hback, fun j => hunchanged j (hnone j)⟩
    · rintro rfl
      obtain ⟨out, hback, hunchanged⟩ := syHandedBack_powerOnReset habandon (Nat.zero_le _)
      exact ⟨out, hback, fun j => hunchanged j (hnone j)⟩
  · have habandon := abandonCommand_of_instr fetched
    obtain ⟨hport, huntouched⟩ := powerOnReset_of_abandonBuffers habandon
    refine ⟨hport, huntouched, ?_, ?_⟩
    · rintro n rfl
      obtain ⟨hroom, -⟩ := emitCount_le_output s n
      obtain ⟨out, hback, hunchanged⟩ := frHandedBack_powerOnReset habandon hroom
      refine ⟨out, _, hback, (writtenCount_le s _).trans emitCount_le_frWork, fun c hfault => ?_, hunchanged⟩
      rw [emitCount_frWork_of_fault hfault, writtenCount_zero]
    · rintro n rfl
      obtain ⟨-, hroom⟩ := emitCount_le_output s n
      obtain ⟨out, hback, hunchanged⟩ := syHandedBack_powerOnReset habandon hroom
      refine ⟨out, _, hback, (writtenCount_le s _).trans emitCount_le_syWork, fun c hfault => ?_, hunchanged⟩
      rw [emitCount_syWork_of_fault hfault, writtenCount_zero]

end Machine
end Sys2Proof
end

section
/-! PROOFS about words written out in the spec (95_test_vectors.md sections 4 and 5): words that are a command's encoding
decode to it, since decoding and encoding are inverse, and the others are rejected by the field that is wrong. -/

namespace Sys2Proof

/-- The words of a well-formed command alone decode to it, and no word is left (30_encoding.md R80). -/
theorem decode_of_encode_eq {i : Instr} {words : List Word} (hwf : i.WellFormed) (hwords : encode i = words) :
    decode words = .instr i [] := by
  have hdecode : decode (encode i ++ []) = .instr i [] := decodeOfEncode i [] hwf
  rwa [List.append_nil, hwords] at hdecode

/-- A nonzero must-be-zero bit is rejected under the opcode's name once the operand words are there (30_encoding.md R86). -/
theorem decode_of_imm24_ne_zero {w : Word} {ws : List Word} {op : Opcode} (hop : opcodeOf (opcField w) = some op)
    (henough : operandCount op ≤ ws.length) (himm : imm24Field w &&& mustBeZero op ≠ 0) :
    decode (w :: ws) = .reserved op (ws.drop (operandCount op)) := by
  rw [decode_of_listed hop, if_neg henough.not_gt, if_neg himm]

/-- Settles O3: ten of the words are encodings of the commands named; 0x05 is no listed opcode, and bit 8 of the word of
RDREG must be 0. -/
theorem decodesSpecWords : Obligations.DecodesSpecWords := by
  have hillegal : decode [0x05000000, 0x00000000] = .illegal 0x05 [0x00000000] := decode_of_unlisted rfl
  have hreserved : decode [0x20000100] = .reserved .rdreg [] :=
    decode_of_imm24_ne_zero rfl (Nat.zero_le _) (by decide)
  refine ⟨?_, ?_, ?_, ?_, ?_, ?_, ?_, ?_, ?_, ?_, hillegal, hreserved⟩ <;> exact decode_of_encode_eq rfl rfl

end Sys2Proof
end
